-- ==== Sys2Proof/Word.lean ====
section
/-! DEFINITION. The widths of R17 (00_scope.md): byte, 16-bit and 32-bit unsigned values. -/

namespace Sys2Proof

/-- One byte of the serial link or of a frame buffer (R17). -/
abbrev Byte := BitVec 8

/-- A 16-bit unsigned value: a frame length, a sample, an interval, a window length (R17). -/
abbrev U16 := BitVec 16

/-- A 32-bit unsigned value: `block_count`, `block_write`, a packed word of two samples (R17). -/
abbrev U32 := BitVec 32

end Sys2Proof
end

