-- ==== Sys2Proof/Syntax.lean ====
section
/-! DEFINITION. The syntax of the block: the frame header and packet (30_encoding.md, 40_codec.md), the ONE
inductive `Instr` with one constructor per row of spec/opcode_table.json, and the moves its agents take
(R20, R112). No meaning stands here. -/

namespace Sys2Proof

/-- The 4 bytes of a header's argument, in wire order: `t0` is header byte 4 (R77, R104). -/
structure Tag where
  t0 : Byte
  t1 : Byte
  t2 : Byte
  t3 : Byte
  deriving DecidableEq, Repr, Inhabited

/-- The tag `"nock"` (R105). -/
def Tag.nock : Tag := ⟨0x6E, 0x6F, 0x63, 0x6B⟩

/-- The tag `"ver?"` (R105). -/
def Tag.ver : Tag := ⟨0x76, 0x65, 0x72, 0x3F⟩

/-- The tag `"run!"` (R105). -/
def Tag.run : Tag := ⟨0x72, 0x75, 0x6E, 0x21⟩

/-- Command code `'k'` (R106). -/
def codeK : Byte := 0x6B

/-- Command code `'8'` (R106). -/
def code8 : Byte := 0x38

/-- Command code `'o'` (R106). -/
def codeO : Byte := 0x6F

/-- Command code `'v'` (R106). -/
def codeV : Byte := 0x76

/-- The 8 header bytes in wire order, byte 0 first (R101). -/
structure Header where
  b0 : Byte
  b1 : Byte
  b2 : Byte
  b3 : Byte
  b4 : Byte
  b5 : Byte
  b6 : Byte
  b7 : Byte
  deriving DecidableEq, Repr, Inhabited

/-- The header as the byte list the link carries (R101). -/
def Header.bytes (h : Header) : List Byte := [h.b0, h.b1, h.b2, h.b3, h.b4, h.b5, h.b6, h.b7]

/-- A decoded packet header: label, code, length, argument (R140). -/
structure Packet where
  label : Byte
  code : Byte
  length : U16
  arg : Tag
  deriving DecidableEq, Repr, Inhabited

/-- Which way a frame travels: the table's `direction` (R102). -/
inductive Direction where
  /-- A frame the host sends: rows FRAME_ERROR to UNSUPPORTED. -/
  | hostToDevice
  /-- A frame the block sends: the reply rows of R109. -/
  | deviceToHost
  deriving DecidableEq, Repr, Inhabited

/-- One constructor per row of spec/opcode_table.json. A command carries the payload bytes that follow
its header (R100): the header's length field is the payload's length, so it is no operand of its own.
A frame error has no payload (R164), so it keeps its length field. -/
inductive Instr where
  /-- FRAME_ERROR (R106 row 1): a header whose label byte is not `LABEL`; all 8 bytes are operands. -/
  | frameError (label : Byte) (code : Byte) (length : U16) (arg : Tag)
  /-- LIVENESS (R202): code `'k'`, tag `"nock"`. -/
  | liveness (payload : List Byte)
  /-- VERSION (R203): code `'8'`, tag `"ver?"`. -/
  | version (payload : List Byte)
  /-- OSC_RUN (R204): code `'o'`, tag `"run!"`; the payload is interval and window length (R108). -/
  | oscRun (payload : List Byte)
  /-- OSC_OTHER (R205): code `'o'`, any other tag. -/
  | oscOther (arg : Tag) (payload : List Byte)
  /-- VOLTMETER (R206): code `'v'`, any tag. -/
  | voltmeter (arg : Tag) (payload : List Byte)
  /-- EXTERNAL (R207): a code in `EXTERNAL_CODES`, any tag. -/
  | external (code : Byte) (arg : Tag) (payload : List Byte)
  /-- K_OTHER (R208): code `'k'`, a tag other than `"nock"`. -/
  | kOther (arg : Tag) (payload : List Byte)
  /-- VER_OTHER (R208): code `'8'`, a tag other than `"ver?"`. -/
  | verOther (arg : Tag) (payload : List Byte)
  /-- UNSUPPORTED (R208): every other code, any tag. -/
  | unsupported (code : Byte) (arg : Tag) (payload : List Byte)
  /-- REPLY_LIVENESS (R109): the echo of the liveness header. -/
  | replyLiveness
  /-- REPLY_VERSION (R109): `[LABEL, '8', 0, 0] ++ VERSION`. -/
  | replyVersion
  /-- REPLY_RUN_ACK (R109): `[LABEL, 'o', 0, 0] ++ "run!"`. -/
  | replyRunAck
  /-- REPLY_BULK (R109, R242): the bulk capture header, with its two metadata values (R110). -/
  | replyBulk (intra : U16) (interval : U16)
  deriving DecidableEq, Repr, Inhabited

/-- The direction of an instruction's frame, as its table row gives it (R102). -/
def Instr.direction : Instr → Direction
  | .frameError _ _ _ _ => .hostToDevice
  | .liveness _ => .hostToDevice
  | .version _ => .hostToDevice
  | .oscRun _ => .hostToDevice
  | .oscOther _ _ => .hostToDevice
  | .voltmeter _ _ => .hostToDevice
  | .external _ _ _ => .hostToDevice
  | .kOther _ _ => .hostToDevice
  | .verOther _ _ => .hostToDevice
  | .unsupported _ _ _ => .hostToDevice
  | .replyLiveness => .deviceToHost
  | .replyVersion => .deviceToHost
  | .replyRunAck => .deviceToHost
  | .replyBulk _ _ => .deviceToHost

/-- The channel index `c` of R56. -/
inductive Chan where
  | c0
  | c1
  deriving DecidableEq, Repr, Inhabited

/-- The other channel, `1 - c` (R240). -/
def Chan.other : Chan → Chan
  | .c0 => .c1
  | .c1 => .c0

/-- The five interrupt sources of R291. -/
inductive IntSource where
  | rx
  | tx
  | adc (c : Chan)
  | tick
  deriving DecidableEq, Repr, Inhabited

/-- The agents of R20. -/
inductive Agent where
  | host
  | uartRx
  | txDma
  | sampleTimer
  | tickTimer
  | cpu
  deriving DecidableEq, Repr, Inhabited

/-- One move of one agent, with the free inputs it takes: the session events of R112. -/
inductive Event where
  /-- `SEND b`: the host sends one byte (R161). -/
  | send (b : Byte)
  /-- `UART`: the serial peripheral moves one received byte into the receive DMA buffer (R162, R163). -/
  | uart
  /-- `TXB`: the transmit DMA sends one byte (R173). -/
  | txb
  /-- `TICK`: the periodic tick timer fires (R168). -/
  | tick
  /-- `SAMPLE(v0, v1)`: one sample-timer tick with the two conversion results (R236). -/
  | sample (v0 : U16) (v1 : U16)
  /-- `ISR x`: the CPU enters and runs the handler of source `x` (R296). -/
  | isr (x : IntSource)
  /-- `ML`: one main-loop step (R200, R209, R210). -/
  | ml
  deriving DecidableEq, Repr, Inhabited

/-- The agent that makes a move (R20). -/
def Event.agent : Event → Agent
  | .send _ => .host
  | .uart => .uartRx
  | .txb => .txDma
  | .tick => .tickTimer
  | .sample _ _ => .sampleTimer
  | .isr _ => .cpu
  | .ml => .cpu

end Sys2Proof
end

