-- ==== Sys2Proof/Config.lean ====
section
/-! DEFINITION. The implementation parameters of 00_scope.md rules R6 to R16 as plain data, when they are
admissible (R23), the configuration `State.reset` is built with, and the free choice of the next move. -/

namespace Sys2Proof

/-- The parameter `OFFSET` (R14) as data: the formula R233 gives as default, or any other function of the
window length, written as its values at the admitted lengths 2, 4, 6, … in order. -/
inductive OffsetFn where
  /-- The default of R233. -/
  | formula
  /-- Another function of `L` alone: entry `k` is `(offset_blocks, intra)` at `L = 2 * (k + 1)`. -/
  | table (rows : List (Nat × Nat))
  deriving DecidableEq, Repr, Inhabited

/-- The parameters (R6 to R16). No step writes them. -/
structure Config where
  /-- `N_BLOCKS` (R6). -/
  nBlocks : Nat
  /-- `N_SAMPLES` (R7). -/
  nSamples : Nat
  /-- `WINDOW` (R8). -/
  window : Nat
  /-- `PRE` (R8). -/
  pre : Nat
  /-- `LABEL` (R9). -/
  label : Byte
  /-- `VERSION` (R10): any 4 bytes. That a byte above 0x7F makes no configuration inadmissible is the model's
  choice (DESIGN CHOICE, log 15). -/
  version : Tag
  /-- `RX_PAYLOAD_MAX` (R11). -/
  rxPayloadMax : Nat
  /-- `RX_FIFO_DEPTH` (R12). -/
  rxFifoDepth : Nat
  /-- `EXTERNAL_CODES` (R13), a set: only membership is ever read. -/
  externalCodes : List Byte
  /-- `OFFSET` (R14). -/
  offsetFn : OffsetFn
  /-- `TICK_PERIOD` in milliseconds (R16): timing, so no rule reads it; any number is admissible (log 12). -/
  tickPeriod : Nat
  deriving DecidableEq, Repr, Inhabited

/-- `R = N_BLOCKS * N_SAMPLES`, the samples one channel's ring holds (R7). -/
def Config.ringSize (c : Config) : Nat := c.nBlocks * c.nSamples

/-- `MASK = N_BLOCKS - 1` (R6), at the width of `block_write` (R17). -/
def Config.mask (c : Config) : U32 := BitVec.ofNat 32 (c.nBlocks - 1)

/-- The window lengths that pass R231: positive, even, at most `WINDOW`. -/
abbrev Config.admitsLength (c : Config) (l : Nat) : Prop := l ≠ 0 ∧ l % 2 = 0 ∧ l ≤ c.window

/-- R6: a power of two, at least 2. -/
abbrev Config.blocksOk (c : Config) : Prop := 2 ≤ c.nBlocks ∧ 2 ^ Nat.log2 c.nBlocks = c.nBlocks

/-- R7: even and at least 2. -/
abbrev Config.samplesOk (c : Config) : Prop := 2 ≤ c.nSamples ∧ c.nSamples % 2 = 0

/-- R8. -/
abbrev Config.windowOk (c : Config) : Prop :=
  c.window % 2 = 0 ∧ 2 ≤ c.window ∧ c.window ≤ (c.nBlocks - 1) * c.nSamples ∧ c.pre + c.window / 2 ≤ c.ringSize

/-- R11 and R12. -/
abbrev Config.receiveOk (c : Config) : Prop := 4 ≤ c.rxPayloadMax ∧ c.rxPayloadMax ≤ 65535 ∧ 1 ≤ c.rxFifoDepth

/-- R13. -/
abbrev Config.externalOk (c : Config) : Prop :=
  codeK ∉ c.externalCodes ∧ code8 ∉ c.externalCodes ∧ codeO ∉ c.externalCodes

/-- The range R233 asks of a replacement offset function at the length `l`. -/
abbrev Config.rowOk (c : Config) (l : Nat) (row : Nat × Nat) : Prop :=
  row.1 ≤ c.nBlocks - 1 ∧ row.2 < c.nSamples ∧ row.2 + l ≤ c.ringSize

/-- R14: a replacement offset function has a value in range at every admitted length. -/
def OffsetFn.ok (c : Config) : OffsetFn → Bool
  | .formula => true
  | .table rows =>
    rows.length == c.window / 2 && rows.zipIdx.all (fun r => decide (c.rowOk (2 * (r.2 + 1)) r.1))

/-- An admissible configuration (R23: rules R6 to R17 hold). R10 calls `VERSION` ASCII bytes and gives no
constraint: DESIGN CHOICE (log 15), nothing is asked of its 4 bytes, so one above 0x7F is admissible. Nothing is
asked of `LABEL` (R9) and `TICK_PERIOD` (R16, log 12) either. Safe: more configurations than the spec may have. -/
abbrev Config.admissible (c : Config) : Prop :=
  c.blocksOk ∧ c.samplesOk ∧ c.windowOk ∧ c.receiveOk ∧ c.externalOk ∧
    c.offsetFn.ok c = true ∧ 4 * c.ringSize ≤ 65535

/-- The configuration of `State.reset`. DESIGN CHOICE (log 1): the spec leaves every value open; these are
the test values of 95_test_vectors.md section 0, but `LABEL`, which is the 0 that the match words of
spec/opcode_table.json hold in their label bits. Unsafe for a statement about this configuration alone. -/
def Config.base : Config where
  nBlocks := 4
  nSamples := 4
  window := 8
  pre := 2
  label := 0x00
  version := ⟨0x54, 0x30, 0x30, 0x31⟩
  rxPayloadMax := 16
  rxFifoDepth := 4
  externalCodes := [0x67]
  offsetFn := .formula
  tickPeriod := 200

/-- Test configuration TC of 95_test_vectors.md section 0: a test value, no claim about the firmware. -/
def Config.tc : Config := { Config.base with label := 0x4C }

/-- The move taken at draw number `n` when no move has been chosen in advance: which agent steps, which byte
the host sends and what the converters read. A FREE VALUE (log 3): R19, R20 and R294 leave each open, and
nothing can evaluate this constant. -/
opaque Config.freeMove : Nat → Event

end Sys2Proof
end

