-- ==== Sys2Proof/Machine/State.lean ====
section
/-! DEFINITION. The machine's state as plain data: every field of 10_state.md rule R51 and every memory of
20_memory.md rule R70, the stop reasons of a step, and the state after core initialisation (R321). -/

namespace Sys2Proof.Machine

/-- The five memories of R70, by name. -/
inductive MemName where
  | ring (c : Chan)
  | rxh
  | rxp
  | txh
  deriving DecidableEq, Repr, Inhabited

/-- Why the model stops. The faults the SPEC names (R286) are no stops: R285 makes each a mark on the state,
`FaultName` below. These are the cases for which the spec states no effect and no mark; every one needs a
state outside `State.Inv` (Safety.lean). -/
inductive Fault where
  /-- A cell outside a memory (R70, R72: indexes below the memory's size only). Raised by the memory
  operations of Ops.lean. Safe: the machine stops. -/
  | noSuchCell (m : MemName)
  /-- The receive handler entered while no transfer is complete (R165: it always finds HEADER_DONE or
  PAYLOAD_DONE). Raised by `rxHandler`. Safe. -/
  | rxHandlerPhase
  /-- M1 finds a header with a wrong label (R200: never FrameError here). Raised by `mainTake`. Safe. -/
  | noCommandAtDispatch
  /-- A byte past the header of a transmit that has no ring payload (R174: only reached when `tx_bulk`).
  Raised by `txByteAt`. Safe. -/
  | payloadWithoutBulk
  deriving DecidableEq, Repr, Inhabited

/-- Why the model has no meaning. The refusals the SPEC names (R288) are no stops either: R290 makes each a
mark on the state, `RefusalName` below. -/
inductive Refusal where
  /-- An instruction whose meaning is not written. Raised by exec's refused arms (there is none). Safe. -/
  | notModelled (mnemonic : String)
  /-- An inadmissible configuration is refused (R23, U24). Raised by `step`. Safe. -/
  | inadmissibleConfig
  deriving DecidableEq, Repr, Inhabited

/-- The fault names of R286, the marks `σ.faults` holds. -/
inductive FaultName where
  | window
  | acqBusy
  | interval
  | cmdLength
  | rxLength
  | rxFifoOverflow
  | txOverlap
  /-- `F_ADC_OVERRUN` records the channel index (R286). -/
  | adcOverrun (c : Chan)
  | unwritten
  deriving DecidableEq, Repr, Inhabited

/-- The refusal names of R288. -/
inductive RefusalName where
  | oscOther
  | voltmeter
  | external
  deriving DecidableEq, Repr, Inhabited

/-- `rx_phase` (R34). -/
inductive RxPhase where
  | off
  | header
  | payload
  | headerDone
  | payloadDone
  deriving DecidableEq, Repr, Inhabited

/-- `ml_phase` (R46). -/
inductive MlPhase where
  | idle
  | reply
  | rearm
  deriving DecidableEq, Repr, Inhabited

/-- The cells of one memory that have been written: (index, value) pairs, indexes strictly rising. A cell that
is not listed is unwritten (R71). For the byte memories this is a list of `Host.Cell`. -/
abbrev Mem (w : Nat) := List (Nat × BitVec w)

/-- The canonical form: indexes strictly rising. -/
abbrev Mem.wf {w : Nat} (m : Mem w) : Prop := (m.map Prod.fst).Pairwise (· < ·)

/-- Every listed index lies below the memory's size. -/
abbrev Mem.below {w : Nat} (m : Mem w) (size : Nat) : Prop := ∀ e ∈ m, e.1 < size

/-- The data store: five named memories and nothing else (R70). -/
structure Memory where
  /-- `RING[0]`, `R` cells of 16 bits. -/
  ring0 : Mem 16
  /-- `RING[1]`, `R` cells of 16 bits. -/
  ring1 : Mem 16
  /-- `RXH`, 8 bytes. -/
  rxh : Mem 8
  /-- `RXP`, `RX_PAYLOAD_MAX` bytes. -/
  rxp : Mem 8
  /-- `TXH`, 8 bytes. -/
  txh : Mem 8
  deriving DecidableEq, Repr, Inhabited

/-- Every memory is in canonical form. -/
abbrev Memory.wf (m : Memory) : Prop := m.ring0.wf ∧ m.ring1.wf ∧ m.rxh.wf ∧ m.rxp.wf ∧ m.txh.wf

/-- The sizes of R70 under a configuration. -/
abbrev Memory.inBounds (c : Config) (m : Memory) : Prop :=
  m.ring0.below c.ringSize ∧ m.ring1.below c.ringSize ∧ m.rxh.below 8 ∧ m.rxp.below c.rxPayloadMax ∧ m.txh.below 8

/-- One channel's record (R38 to R41) and its pending bit (R45). -/
structure Channel where
  /-- `done[c]` (R38). -/
  isDone : Bool
  /-- `block_count[c]` (R39). -/
  blockCount : U32
  /-- `block_write[c]` (R40). -/
  blockWrite : U32
  /-- `dma_armed[c]` (R41). -/
  dmaArmed : Bool
  /-- `dma_pos[c]` (R41). -/
  dmaPos : Nat
  /-- `pend_adc[c]` (R45). -/
  pendAdc : Bool
  deriving DecidableEq, Repr, Inhabited

/-- The state σ. -/
structure State where
  /-- The configuration the machine was built with (R6 to R16); the MODEL's own field, no step writes it. -/
  cfg : Config
  /-- `rx_flag` (R31). -/
  rxFlag : Bool
  /-- `tx_flag` (R32). -/
  txFlag : Bool
  /-- `rx_stalled` (R33). -/
  rxStalled : Bool
  /-- `rx_phase` (R34). -/
  rxPhase : RxPhase
  /-- `rx_count` (R35). -/
  rxCount : Nat
  /-- `rx_target` (R35). -/
  rxTarget : U16
  /-- `rx_fifo` (R36), oldest byte first. -/
  rxFifo : List Byte
  /-- `tx_pos` (R37). -/
  txPos : Nat
  /-- `tx_total` (R37). -/
  txTotal : Nat
  /-- `tx_bulk` (R37). -/
  txBulk : Bool
  /-- The record of channel 0 (R38 to R41, R45). -/
  ch0 : Channel
  /-- The record of channel 1. -/
  ch1 : Channel
  /-- `acq_busy` (R42). -/
  acqBusy : Bool
  /-- `acq_interval` (R42). -/
  acqInterval : U16
  /-- `acq_length` (R42). -/
  acqLength : U16
  /-- `acq_offset_blocks` (R42). -/
  acqOffsetBlocks : U32
  /-- `acq_intra` (R42). -/
  acqIntra : U16
  /-- `timer_running` (R43). -/
  timerRunning : Bool
  /-- `timer_interval` (R43). -/
  timerInterval : U16
  /-- `pend_rx` (R45). -/
  pendRx : Bool
  /-- `pend_tx` (R45). -/
  pendTx : Bool
  /-- `pend_tick` (R45). -/
  pendTick : Bool
  /-- `ml_phase` (R46). -/
  mlPhase : MlPhase
  /-- `ml_reply` (R46). -/
  mlReply : Option Header
  /-- `host_out` (R47), in the order sent. -/
  hostOut : List Byte
  /-- `faults` (R48), a set: no repeats, in one fixed order. -/
  faults : List FaultName
  /-- `refused` (R48). -/
  refused : Option RefusalName
  /-- The five memories (R70). -/
  mem : Memory
  /-- Moves chosen in advance, first one next (log 3); the MODEL's own field: the session of R112 that the
  outside world and the schedule still hold. Empty: the next move is a free value. -/
  moves : List Event
  /-- How many free moves have been drawn (log 3); the MODEL's own field. -/
  drawn : Nat
  deriving DecidableEq, Repr, Inhabited

/-- A channel record at reset (R51). -/
def Channel.reset : Channel where
  isDone := false
  blockCount := 0
  blockWrite := 0
  dmaArmed := false
  dmaPos := 0
  pendAdc := false

/-- The memories at reset: no cell written (R71, R322). -/
def Memory.reset : Memory := ⟨[], [], [], [], []⟩

/-- The state after core initialisation under a configuration: the table of R51, R321 step 2, R322. -/
def State.resetWith (c : Config) : State where
  cfg := c
  rxFlag := false
  txFlag := false
  rxStalled := false
  rxPhase := .header
  rxCount := 0
  rxTarget := 0
  rxFifo := []
  txPos := 0
  txTotal := 0
  txBulk := false
  ch0 := Channel.reset
  ch1 := Channel.reset
  acqBusy := false
  acqInterval := 0
  acqLength := 0
  acqOffsetBlocks := 0
  acqIntra := 0
  timerRunning := false
  timerInterval := 0
  pendRx := false
  pendTx := false
  pendTick := false
  mlPhase := .idle
  mlReply := none
  hostOut := []
  faults := []
  refused := none
  mem := Memory.reset
  moves := []
  drawn := 0

/-- The machine right after reset, under the configuration `Config.base` (log 1). -/
def State.reset : State := State.resetWith Config.base

end Sys2Proof.Machine
end

