-- ==== Sys2Proof/Machine/Flags.lean ====
section
/-! DEFINITION. The status flags and marks (R49): pending bits, the sticky fault and refusal marks, channel
access, and the small flag computations that more than one rule makes. -/

namespace Sys2Proof.Machine

/-- Channel `c`'s record. -/
def State.chan (s : State) : Chan → Channel
  | .c0 => s.ch0
  | .c1 => s.ch1

/-- Channel `c`'s record replaced. -/
def State.setChan (s : State) : Chan → Channel → State
  | .c0, r => { s with ch0 := r }
  | .c1, r => { s with ch1 := r }

/-- The pending bit of a source (R45, R291). -/
def State.pending (s : State) : IntSource → Bool
  | .rx => s.pendRx
  | .tx => s.pendTx
  | .adc c => (s.chan c).pendAdc
  | .tick => s.pendTick

/-- `pend(x)` (R19): sets the bit; a second event merges into it (R45). -/
def State.pend (s : State) : IntSource → State
  | .rx => { s with pendRx := true }
  | .tx => { s with pendTx := true }
  | .adc c => s.setChan c { s.chan c with pendAdc := true }
  | .tick => { s with pendTick := true }

/-- The pending bit cleared, as handler entry does (R296). -/
def State.clearPend (s : State) : IntSource → State
  | .rx => { s with pendRx := false }
  | .tx => { s with pendTx := false }
  | .adc c => s.setChan c { s.chan c with pendAdc := false }
  | .tick => { s with pendTick := false }

/-- Some pending bit is set (R295). -/
def State.anyPending (s : State) : Bool :=
  s.pendRx || s.pendTx || s.ch0.pendAdc || s.ch1.pendAdc || s.pendTick

/-- The place of a fault name in the fixed order `σ.faults` is kept in. -/
def FaultName.rank : FaultName → Nat
  | .window => 0
  | .acqBusy => 1
  | .interval => 2
  | .cmdLength => 3
  | .rxLength => 4
  | .rxFifoOverflow => 5
  | .txOverlap => 6
  | .adcOverrun .c0 => 7
  | .adcOverrun .c1 => 8
  | .unwritten => 9

/-- A name added to a set of fault names. -/
def insertFault (f : FaultName) : List FaultName → List FaultName
  | [] => [f]
  | g :: rest =>
    if f = g then g :: rest
    else if f.rank < g.rank then f :: g :: rest
    else g :: insertFault f rest

/-- `raise Fault(F_x)` (R19, R285): the name joins `σ.faults`. -/
def State.raise (s : State) (f : FaultName) : State := { s with faults := insertFault f s.faults }

/-- `refuse(REF_x)` (R290): the mark is set if it is not, and never changed after. -/
def State.refuse (s : State) (r : RefusalName) : State := { s with refused := some (s.refused.getD r) }

/-- The run has no fault mark and no refusal mark: the block's behaviour is the spec's (R285, R290). -/
def State.unmarked (s : State) : Bool := s.faults.isEmpty && s.refused.isNone

/-- The stall condition of R169: a header transfer with at least one byte. -/
def State.headerPartial (s : State) : Bool := decide (s.rxPhase = .header) && decide (0 < s.rxCount)

/-- A channel that still has blocks to capture while its DMA is not armed (R238): the overrun condition. -/
def State.awaitsRearm (s : State) (c : Chan) : Bool :=
  s.acqBusy && !(s.chan c).isDone && (s.chan c).blockCount != 0

end Sys2Proof.Machine
end

