-- ==== Sys2Proof/WellFormed.lean ====
section
/-! DEFINITION. Which instructions have a frame of their own under a configuration: the conditions of R106's
rows, first match wins, and the 16-bit length field (R100). -/

namespace Sys2Proof

/-- A payload the 16-bit length field can declare (R100, R103). -/
abbrev payloadOk (payload : List Byte) : Prop := payload.length ≤ 65535

/-- The operands an instruction's own encoding admits (R106, in its order of precedence). -/
def Instr.wellFormed (c : Config) : Instr → Bool
  | .frameError label _ _ _ => decide (label ≠ c.label)
  | .liveness pl => decide (payloadOk pl)
  | .version pl => decide (payloadOk pl)
  | .oscRun pl => decide (payloadOk pl)
  | .oscOther arg pl => decide (arg ≠ Tag.run ∧ payloadOk pl)
  | .voltmeter _ pl => decide (payloadOk pl)
  | .external code arg pl =>
    decide (code ∈ c.externalCodes ∧ code ≠ codeO ∧ code ≠ codeV ∧ ¬(code = codeK ∧ arg = Tag.nock) ∧
      ¬(code = code8 ∧ arg = Tag.ver) ∧ payloadOk pl)
  | .kOther arg pl => decide (arg ≠ Tag.nock ∧ codeK ∉ c.externalCodes ∧ payloadOk pl)
  | .verOther arg pl => decide (arg ≠ Tag.ver ∧ code8 ∉ c.externalCodes ∧ payloadOk pl)
  | .unsupported code _ pl =>
    decide (code ∉ c.externalCodes ∧ code ≠ codeO ∧ code ≠ codeV ∧ code ≠ codeK ∧ code ≠ code8 ∧ payloadOk pl)
  | .replyLiveness => true
  | .replyVersion => true
  | .replyRunAck => true
  | .replyBulk _ _ => decide (0 < c.ringSize ∧ 4 * c.ringSize ≤ 65535)

end Sys2Proof
end

