-- ==== Sys2Proof/Decode.lean ====
section
/-! DEFINITION. Framing and the packet codec (30_encoding.md, 40_codec.md): byte order, header decoding,
the selection of R106, the decoder for both directions, the encoder, and the opcode table's own rows. -/

namespace Sys2Proof

/-- `LE16(b0, b1) = b0 + 256 * b1` (R18, R76). -/
def le16 (b0 b1 : Byte) : U16 := b1 ++ b0

/-- The low byte of a 16-bit value, `v[7:0]` (R18). -/
def loByte (v : U16) : Byte := v.extractLsb' 0 8

/-- The high byte of a 16-bit value, `v[15:8]` (R18). -/
def hiByte (v : U16) : Byte := v.extractLsb' 8 8

/-- `bytesLE16(v) = [v[7:0], v[15:8]]` (R18). -/
def bytesLE16 (v : U16) : List Byte := [loByte v, hiByte v]

/-- The length field of a header, `LE16(byte2, byte3)` (R101, R103). -/
def Header.lengthField (h : Header) : U16 := le16 h.b2 h.b3

/-- The argument of a header as a tag, bytes 4 to 7 in wire order (R101, R104). -/
def Header.argTag (h : Header) : Tag := ⟨h.b4, h.b5, h.b6, h.b7⟩

/-- The header with the given label, code, length and argument (R101). -/
def mkHeader (label code : Byte) (length : U16) (arg : Tag) : Header :=
  ⟨label, code, loByte length, hiByte length, arg.t0, arg.t1, arg.t2, arg.t3⟩

/-- The 64-bit header word `H` of R102, byte 0 in bits 7:0. -/
def Header.word (h : Header) : BitVec 64 :=
  h.b7 ++ h.b6 ++ h.b5 ++ h.b4 ++ h.b3 ++ h.b2 ++ h.b1 ++ h.b0

/-- `decode` of R141: a packet, or none for a FrameError (label byte other than `LABEL`). -/
def decodePacket (c : Config) (h : Header) : Option Packet :=
  if h.b0 = c.label then
    some { label := h.b0, code := h.b1, length := h.lengthField, arg := h.argTag }
  else none

/-- `encode_ctrl` (R143): a control reply, length 0. -/
def encodeCtrl (c : Config) (code : Byte) (arg : Tag) : Header := mkHeader c.label code 0 arg

/-- `encode_bulk` (R144): a bulk reply's header; the payload is read from memory while it is sent. -/
def encodeBulk (c : Config) (code : Byte) (length : U16) (meta4 : Tag) : Header :=
  mkHeader c.label code length meta4

/-- `tag_eq` (R145): exact equality of the 4 bytes. -/
def tagEq (arg lit : Tag) : Bool :=
  arg.t0 == lit.t0 && arg.t1 == lit.t1 && arg.t2 == lit.t2 && arg.t3 == lit.t3

/-- The payload length of the bulk reply, `4 * R` (R109, R243), as its length field. -/
def Config.bulkLength (c : Config) : U16 := BitVec.ofNat 16 (4 * c.ringSize)

/-- The metadata of a bulk reply: `bytesLE16(intra) ++ bytesLE16(interval)` (R109, R110). -/
def bulkMeta (intra interval : U16) : Tag :=
  ⟨loByte intra, hiByte intra, loByte interval, hiByte interval⟩

/-- The liveness echo (R109): the header a LIVENESS frame of length 0 carries. -/
def livenessEcho (c : Config) : Header := encodeCtrl c codeK Tag.nock

/-- The version reply (R109, R203). -/
def versionReply (c : Config) : Header := encodeCtrl c code8 c.version

/-- The run acknowledgement (R109, R204). -/
def runAck (c : Config) : Header := encodeCtrl c codeO Tag.run

/-- The bulk capture header (R109, R242). -/
def bulkHeader (c : Config) (intra interval : U16) : Header :=
  encodeBulk c codeO c.bulkLength (bulkMeta intra interval)

/-- The instruction of a header whose label is wrong (R106 row 1). -/
def frameErrorOf (h : Header) : Instr := .frameError h.b0 h.b1 h.lengthField h.argTag

/-- The selection of R106 rows 2 to 8, first match wins (R201), for a packet and its payload. Rows K_OTHER
and VER_OTHER of the opcode table are the two named parts of R106 row 8. -/
def classify (c : Config) (p : Packet) (payload : List Byte) : Instr :=
  if p.code = codeK ∧ tagEq p.arg Tag.nock = true then .liveness payload
  else if p.code = code8 ∧ tagEq p.arg Tag.ver = true then .version payload
  else if p.code = codeO ∧ tagEq p.arg Tag.run = true then .oscRun payload
  else if p.code = codeO then .oscOther p.arg payload
  else if p.code = codeV then .voltmeter p.arg payload
  else if p.code ∈ c.externalCodes then .external p.code p.arg payload
  else if p.code = codeK then .kOther p.arg payload
  else if p.code = code8 then .verOther p.arg payload
  else .unsupported p.code p.arg payload

/-- Why bytes are no instruction. -/
inductive DecodeError where
  /-- Fewer than 8 bytes: the header has not arrived (R103). -/
  | shortHeader
  /-- The label is right and fewer payload bytes than the header declares have arrived (R100, R103). -/
  | shortPayload
  /-- A header that is none of the frames the block sends (R109). -/
  | notAReply
  deriving DecidableEq, Repr

/-- The first 8 bytes as a header, and the bytes after them. -/
def takeHeader : List Byte → Option (Header × List Byte)
  | b0 :: b1 :: b2 :: b3 :: b4 :: b5 :: b6 :: b7 :: rest => some (⟨b0, b1, b2, b3, b4, b5, b6, b7⟩, rest)
  | _ => none

/-- A received frame: its instruction and the bytes that follow it. A FrameError takes the 8 header bytes
and no more (R142); any other frame takes 8 + length bytes (R103). -/
def decodeCommand (c : Config) (bytes : List Byte) : Except DecodeError (Instr × List Byte) :=
  match takeHeader bytes with
  | none => .error .shortHeader
  | some (h, rest) =>
    match decodePacket c h with
    | none => .ok (frameErrorOf h, rest)
    | some p =>
      if rest.length < p.length.toNat then .error .shortPayload
      else .ok (classify c p (rest.take p.length.toNat), rest.drop p.length.toNat)

/-- The reply row of a header the block sends (R109). -/
def classifyReply (c : Config) (h : Header) : Option Instr :=
  if h = livenessEcho c then some .replyLiveness
  else if h = versionReply c then some .replyVersion
  else if h = runAck c then some .replyRunAck
  else if h = bulkHeader c (le16 h.b4 h.b5) (le16 h.b6 h.b7) then
    some (.replyBulk (le16 h.b4 h.b5) (le16 h.b6 h.b7))
  else none

/-- A sent frame's header: its reply instruction and the bytes that follow it. -/
def decodeReply (c : Config) (bytes : List Byte) : Except DecodeError (Instr × List Byte) :=
  match takeHeader bytes with
  | none => .error .shortHeader
  | some (h, rest) =>
    match classifyReply c h with
    | none => .error .notAReply
    | some i => .ok (i, rest)

/-- The decoder, total on any bytes, for the direction the bytes travel (R102: the reply rows are never
matched against received headers). -/
def decode (c : Config) (d : Direction) (bytes : List Byte) : Except DecodeError (Instr × List Byte) :=
  match d with
  | .hostToDevice => decodeCommand c bytes
  | .deviceToHost => decodeReply c bytes

/-- The header of an instruction's frame (R101, R106, R109). -/
def Instr.header (c : Config) : Instr → Header
  | .frameError label code length arg => mkHeader label code length arg
  | .liveness pl => mkHeader c.label codeK (BitVec.ofNat 16 pl.length) Tag.nock
  | .version pl => mkHeader c.label code8 (BitVec.ofNat 16 pl.length) Tag.ver
  | .oscRun pl => mkHeader c.label codeO (BitVec.ofNat 16 pl.length) Tag.run
  | .oscOther arg pl => mkHeader c.label codeO (BitVec.ofNat 16 pl.length) arg
  | .voltmeter arg pl => mkHeader c.label codeV (BitVec.ofNat 16 pl.length) arg
  | .external code arg pl => mkHeader c.label code (BitVec.ofNat 16 pl.length) arg
  | .kOther arg pl => mkHeader c.label codeK (BitVec.ofNat 16 pl.length) arg
  | .verOther arg pl => mkHeader c.label code8 (BitVec.ofNat 16 pl.length) arg
  | .unsupported code arg pl => mkHeader c.label code (BitVec.ofNat 16 pl.length) arg
  | .replyLiveness => livenessEcho c
  | .replyVersion => versionReply c
  | .replyRunAck => runAck c
  | .replyBulk intra interval => bulkHeader c intra interval

/-- The payload bytes an instruction itself carries. A bulk reply's payload is read from the rings while it
is sent (R174), so it is none of the instruction's own. -/
def Instr.payload : Instr → List Byte
  | .frameError _ _ _ _ => []
  | .liveness pl => pl
  | .version pl => pl
  | .oscRun pl => pl
  | .oscOther _ pl => pl
  | .voltmeter _ pl => pl
  | .external _ _ pl => pl
  | .kOther _ pl => pl
  | .verOther _ pl => pl
  | .unsupported _ _ pl => pl
  | .replyLiveness => []
  | .replyVersion => []
  | .replyRunAck => []
  | .replyBulk _ _ => []

/-- The encoder: the bytes of an instruction's frame (R100, R101). -/
def encode (c : Config) (i : Instr) : List Byte := (i.header c).bytes ++ i.payload

/-! ## The opcode table's own rows (R102) -/

/-- What a row of the opcode table asks of the header word. -/
inductive RowMatch where
  /-- `(H & mask) = match`. -/
  | word (mask value : BitVec 64)
  /-- Parametric: the label byte is not `LABEL`. -/
  | labelDiffers
  /-- Parametric: the code byte is in `EXTERNAL_CODES`. -/
  | codeExternal
  deriving DecidableEq, Repr

/-- The host-to-device rows of spec/opcode_table.json in increasing precedence, each with its mnemonic. -/
def opcodeRows : List (String × RowMatch) :=
  [("FRAME_ERROR", .labelDiffers),
   ("LIVENESS", .word 0xFFFFFFFF0000FF00 0x6B636F6E00006B00),
   ("VERSION", .word 0xFFFFFFFF0000FF00 0x3F72657600003800),
   ("OSC_RUN", .word 0xFFFFFFFF0000FF00 0x216E757200006F00),
   ("OSC_OTHER", .word 0x000000000000FF00 0x0000000000006F00),
   ("VOLTMETER", .word 0x000000000000FF00 0x0000000000007600),
   ("EXTERNAL", .codeExternal),
   ("K_OTHER", .word 0x000000000000FF00 0x0000000000006B00),
   ("VER_OTHER", .word 0x000000000000FF00 0x0000000000003800),
   ("UNSUPPORTED", .word 0 0)]

/-- Whether a row selects a header word (R102). -/
def RowMatch.selects (c : Config) (w : BitVec 64) : RowMatch → Bool
  | .word mask value => w &&& mask == value
  | .labelDiffers => w.extractLsb' 0 8 != c.label
  | .codeExternal => decide (w.extractLsb' 8 8 ∈ c.externalCodes)

/-- The first row that selects a header, rows tried in increasing precedence (R102). -/
def tableRow (c : Config) (h : Header) : Option String :=
  (opcodeRows.find? (fun r => r.2.selects c h.word)).map Prod.fst

/-- An instruction's row of the opcode table. -/
def Instr.mnemonic : Instr → String
  | .frameError _ _ _ _ => "FRAME_ERROR"
  | .liveness _ => "LIVENESS"
  | .version _ => "VERSION"
  | .oscRun _ => "OSC_RUN"
  | .oscOther _ _ => "OSC_OTHER"
  | .voltmeter _ _ => "VOLTMETER"
  | .external _ _ _ => "EXTERNAL"
  | .kOther _ _ => "K_OTHER"
  | .verOther _ _ => "VER_OTHER"
  | .unsupported _ _ _ => "UNSUPPORTED"
  | .replyLiveness => "REPLY_LIVENESS"
  | .replyVersion => "REPLY_VERSION"
  | .replyRunAck => "REPLY_RUN_ACK"
  | .replyBulk _ _ => "REPLY_BULK"

/-! ## A frame as a number (the opcode table's bit numbering) -/

/-- Byte `k` of a number whose bit 0 is the least significant bit of byte 0; the bits from `nbits` on are 0. -/
def wordByte (nbits w k : Nat) : Byte := BitVec.ofNat 8 ((w % 2 ^ nbits) / 256 ^ k)

/-- The header in the low 64 bits of a number. -/
def wordHeader (nbits w : Nat) : Header :=
  ⟨wordByte nbits w 0, wordByte nbits w 1, wordByte nbits w 2, wordByte nbits w 3,
   wordByte nbits w 4, wordByte nbits w 5, wordByte nbits w 6, wordByte nbits w 7⟩

/-- `n` bytes of a number from byte `k` on. -/
def wordBytesFrom (nbits w : Nat) : Nat → Nat → List Byte
  | _, 0 => []
  | k, n + 1 => wordByte nbits w k :: wordBytesFrom nbits w (k + 1) n

/-- The payload of a numbered frame: the bytes above bit 63, as many as its length field declares. -/
def wordPayload (nbits w : Nat) : List Byte :=
  wordBytesFrom nbits w 8 (wordHeader nbits w).lengthField.toNat

/-- The instruction the decoder reads from a received frame given as a number, under the configuration of
`State.reset`. -/
def decodeTableWord (nbits w : Nat) : Option Instr :=
  match decode Config.base .hostToDevice ((wordHeader nbits w).bytes ++ wordPayload nbits w) with
  | .ok (i, _) => some i
  | .error _ => none

end Sys2Proof
end

