-- ==== Sys2Proof/Machine/Operands.lean ====
section
/-! DEFINITION. Operand assembly: the run command's payload (R108), the window offset (R233), the slot
addressing of the rings (R74) and the map from a transmit position to a byte of the rings (R174). -/

namespace Sys2Proof.Machine

/-- The operands of the oscilloscope run: `interval` and the window length `L` (R108). -/
structure RunOperands where
  interval : U16
  length : U16
  deriving DecidableEq, Repr

/-- The run payload's 4 bytes as operands (R108); none for any other number of bytes. -/
def runOperands : List Byte → Option RunOperands
  | [p0, p1, p2, p3] => some ⟨le16 p0 p1, le16 p2 p3⟩
  | _ => none

/-- The samples skipped before the window, `PRE + (WINDOW - L) div 2` (R233). -/
def offsetSkip (c : Config) (l : Nat) : Nat := c.pre + (c.window - l) / 2

/-- `OFFSET(L) = (off, intra)` (R233, R14). -/
def offsetOf (c : Config) (l : Nat) : Nat × Nat :=
  match c.offsetFn with
  | .formula => (offsetSkip c l / c.nSamples, offsetSkip c l % c.nSamples)
  | .table rows => rows.getD (l / 2 - 1) (0, 0)

/-- The ring cell of sample `p` of slot `slot` (R74). -/
def ringIndex (c : Config) (slot p : Nat) : Nat := slot * c.nSamples + p

/-- `block_write` at the start of an acquisition, `(N_BLOCKS - off) & MASK` (R232). -/
def startSlot (c : Config) (off : Nat) : U32 := BitVec.ofNat 32 (c.nBlocks - off) &&& c.mask

/-- The slot after a slot, `(slot + 1) & MASK` (R239). -/
def nextSlot (c : Config) (slot : U32) : U32 := (slot + 1) &&& c.mask

/-- `block_count` at the start of an acquisition, `N_BLOCKS + off` (R232). -/
def startCount (c : Config) (off : Nat) : U32 := BitVec.ofNat 32 (c.nBlocks + off)

/-- The ring byte at payload position `j` of a bulk reply (R174), with `c = j div (2*R)` and
`q = j mod (2*R)`: the channel, the cell `q div 2` and whether it is the high byte; none past channel 1. -/
def bulkPlace (c : Config) (j : Nat) : Option (Chan × Nat × Bool) :=
  let q := j % (2 * c.ringSize)
  match j / (2 * c.ringSize) with
  | 0 => some (.c0, q / 2, decide (q % 2 = 1))
  | 1 => some (.c1, q / 2, decide (q % 2 = 1))
  | _ => none

end Sys2Proof.Machine
end

