-- ==== Sys2Proof/Machine/Ops.lean ====
section
/-! DEFINITION. The named operations over memories and state: cell reads and writes (20_memory.md), handler
entry and return (R296, R297), reception re-arm (R166), transmit start (R172), the acquisition engine's parts
(43_acquisition.md). Each is written once and called by every meaning and every agent that needs it. -/

namespace Sys2Proof.Machine

/-! ## Cells (R70 to R73) -/

/-- The value of a cell, none while it is unwritten (R71). -/
def Mem.read {w : Nat} : Mem w → Nat → Option (BitVec w)
  | [], _ => none
  | (k, v) :: rest, a => if k = a then some v else Mem.read rest a

/-- A cell written (R73): it is listed at its place, so that the indexes stay strictly rising. -/
def Mem.write {w : Nat} : Mem w → Nat → BitVec w → Mem w
  | [], a, v => [(a, v)]
  | (k, x) :: rest, a, v =>
    if a < k then (a, v) :: (k, x) :: rest
    else if a = k then (a, v) :: rest
    else (k, x) :: Mem.write rest a v

/-- Consecutive cells written from index `a` on. -/
def Mem.writeList {w : Nat} (m : Mem w) : Nat → List (BitVec w) → Mem w
  | _, [] => m
  | a, v :: rest => Mem.writeList (m.write a v) (a + 1) rest

/-- What reading gives (R72): a value, no value because the cell is unwritten, or no such cell at all. -/
inductive Read (α : Type) where
  | value (v : α)
  | unwritten
  | absent
  deriving DecidableEq, Repr

/-- One cell of a memory of `size` cells (R72). -/
def Mem.cell {w : Nat} (m : Mem w) (size a : Nat) : Read (BitVec w) :=
  if a < size then
    match m.read a with
    | some v => .value v
    | none => .unwritten
  else .absent

/-- `n` consecutive cells from index `a` on, read in order; the first that gives no value decides. -/
def Mem.cells {w : Nat} (m : Mem w) (size : Nat) : Nat → Nat → Read (List (BitVec w))
  | _, 0 => .value []
  | a, n + 1 =>
    match m.cell size a with
    | .value v =>
      match Mem.cells m size (a + 1) n with
      | .value vs => .value (v :: vs)
      | .unwritten => .unwritten
      | .absent => .absent
    | .unwritten => .unwritten
    | .absent => .absent

/-- Eight bytes as a header. -/
def headerOfBytes : List Byte → Option Header
  | [b0, b1, b2, b3, b4, b5, b6, b7] => some ⟨b0, b1, b2, b3, b4, b5, b6, b7⟩
  | _ => none

/-- `RING[c]`. -/
def Memory.ring (m : Memory) : Chan → Mem 16
  | .c0 => m.ring0
  | .c1 => m.ring1

/-- `RING[c]` replaced. -/
def Memory.setRing (m : Memory) : Chan → Mem 16 → Memory
  | .c0, r => { m with ring0 := r }
  | .c1, r => { m with ring1 := r }

/-- `RingRead(c, i)` (R72). -/
def State.ringRead (s : State) (c : Chan) (i : Nat) : Read U16 := (s.mem.ring c).cell s.cfg.ringSize i

/-- `RingWrite(c, i, v)` (R73), for an index inside the ring. -/
def State.ringWrite (s : State) (c : Chan) (i : Nat) (v : U16) : State :=
  { s with mem := s.mem.setRing c ((s.mem.ring c).write i v) }

/-- Word `w` of channel `c`, two packed samples, the earlier in bits 15:0 (R75); none while either half is
unwritten. -/
def State.ringWord (s : State) (c : Chan) (w : Nat) : Option U32 :=
  match (s.mem.ring c).read (2 * w), (s.mem.ring c).read (2 * w + 1) with
  | some lo, some hi => some (hi ++ lo)
  | _, _ => none

/-- `RXH[0..7]`, read in order (R72). -/
def State.readRxHeader (s : State) : Read (List Byte) := s.mem.rxh.cells 8 0 8

/-- `RXP[0 .. n-1]`, read in order (R200). -/
def State.readRxPayload (s : State) (n : Nat) : Read (List Byte) := s.mem.rxp.cells s.cfg.rxPayloadMax 0 n

/-! ## How an operation goes on (R285) -/

/-- An operation inside a step: it goes on with a state, it ends the step with the state as it stands (a fault
or a refusal was raised: no other effect from the raise on, R285), or the model stops. -/
inductive Flow where
  | cont (s : State)
  | ends (s : State)
  | stop (f : Fault)
  deriving DecidableEq, Repr

/-- The next part of a step, taken only when the part before it went on. -/
def Flow.andThen (x : Flow) (k : State → Flow) : Flow :=
  match x with
  | .cont s => k s
  | .ends s => .ends s
  | .stop f => .stop f

/-- A step's outcome: a raised mark is a NEXT state (R48, R285, R290). -/
def Flow.outcome : Flow → Host.Outcome State Fault Refusal
  | .cont s => .next s
  | .ends s => .next s
  | .stop f => .fault f

/-! ## Handlers (R296, R297) -/

/-- TAKING AN INTERRUPT: handler entry clears the source's pending bit and saves nothing; the body then runs to
completion in the same step (R296). -/
def enterHandler (x : IntSource) (s : State) : State := s.clearPend x

/-- RETURN from a handler: there is no return instruction and nothing to restore (R297). -/
def returnFromHandler (s : State) : State := s

/-! ## Transport parts (41_transport.md) -/

/-- `rearm_rx()` (R166). -/
def rearmRx (s : State) : State := { s with rxPhase := .header, rxCount := 0, rxStalled := false }

/-- `force_reset_rx()` (R170): the same effect; the partial header is discarded, `rx_fifo` is not. -/
def forceResetRx (s : State) : State := rearmRx s

/-- The receive handler's work on a header whose label is right (R164): a frame without payload is complete,
a payload too long for the buffer is a fault, any other payload is armed. -/
def acceptHeader (p : Packet) (s : State) : State :=
  if p.length = 0 then { s with rxPhase := .off, rxFlag := true, rxStalled := false }
  else if s.cfg.rxPayloadMax < p.length.toNat then s.raise .rxLength
  else { s with rxPhase := .payload, rxCount := 0, rxTarget := p.length, rxStalled := false }

/-- `start_tx(h, bulk, plen)` (R172). -/
def startTx (h : Header) (bulk : Bool) (plen : Nat) (s : State) : Flow :=
  if s.txFlag then .ends (s.raise .txOverlap)
  else
    .cont { s with
      mem := { s.mem with txh := s.mem.txh.writeList 0 h.bytes }
      txBulk := bulk
      txPos := 0
      txTotal := 8 + plen
      txFlag := true }

/-- What `txbyte(k)` gives (R174): the byte, an unwritten cell, or a position no rule covers. -/
inductive TxByte where
  | byte (b : Byte)
  | unwritten
  | noRule (f : Fault)
  deriving DecidableEq, Repr

/-- `txbyte(k)` (R174), read when the byte is sent (R89). -/
def txByteAt (s : State) (k : Nat) : TxByte :=
  if k < 8 then
    match s.mem.txh.read k with
    | some b => .byte b
    | none => .unwritten
  else if s.txBulk then
    match bulkPlace s.cfg (k - 8) with
    | none => .noRule (.noSuchCell (.ring .c1))
    | some (c, i, high) =>
      match s.ringRead c i with
      | .value v => .byte (if high then hiByte v else loByte v)
      | .unwritten => .unwritten
      | .absent => .noRule (.noSuchCell (.ring c))
  else .noRule .payloadWithoutBulk

/-! ## Command parts (42_commands.md) -/

/-- `require_len(p, n)` (R201, R107). -/
def requireLen (payload : List Byte) (n : Nat) (s : State) : Flow :=
  if payload.length = n then .cont s else .ends (s.raise .cmdLength)

/-- The end of M1 (R200): the command's reply, if any, waits for M2. -/
def setReply (r : Option Header) (s : State) : State := { s with mlReply := r, mlPhase := .reply }

/-- M2 on a header (R209): the reply is started and reception is next. -/
def sendReply (h : Header) (s : State) : Flow :=
  (startTx h false 0 s).andThen (fun t => .cont { t with mlReply := none, mlPhase := .rearm })

/-! ## Acquisition parts (43_acquisition.md) -/

/-- The preconditions of `acquire`, checked in this order (R231, R289). -/
def acquireChecks (interval l : U16) (s : State) : Flow :=
  if s.acqBusy then .ends (s.raise .acqBusy)
  else if interval = 0 then .ends (s.raise .interval)
  else if s.cfg.admitsLength l.toNat then .cont s
  else .ends (s.raise .window)

/-- A channel record at the start of an acquisition (R232); the pending bit is no part of it. -/
def armChannel (c : Config) (off : Nat) (r : Channel) : Channel :=
  { r with
    isDone := false
    blockCount := startCount c off
    blockWrite := startSlot c off
    dmaPos := 0
    dmaArmed := true }

/-- Channel initialisation and timer start (R232, R234). -/
def acquireStart (interval l : U16) (s : State) : State :=
  let o := offsetOf s.cfg l.toNat
  { s with
    ch0 := armChannel s.cfg o.1 s.ch0
    ch1 := armChannel s.cfg o.1 s.ch1
    acqBusy := true
    acqInterval := interval
    acqLength := l
    acqOffsetBlocks := BitVec.ofNat 32 o.1
    acqIntra := BitVec.ofNat 16 o.2
    timerInterval := interval
    timerRunning := true }

/-- `acquire(interval, L)` (R231 to R234). -/
def acquire (interval l : U16) (s : State) : Flow :=
  (acquireChecks interval l s).andThen (fun t => .cont (acquireStart interval l t))

/-- The armed path of `sample_in(c, v)` (R237): the sample is stored; the block's last one disarms the DMA and
sets the pending bit. -/
def storeSample (c : Chan) (v : U16) (s : State) : Flow :=
  let r := s.chan c
  let i := ringIndex s.cfg r.blockWrite.toNat r.dmaPos
  if i < s.cfg.ringSize then
    let t := s.ringWrite c i v
    if r.dmaPos + 1 = s.cfg.nSamples then
      .cont ((t.setChan c { r with dmaArmed := false, dmaPos := 0 }).pend (.adc c))
    else .cont (t.setChan c { r with dmaPos := r.dmaPos + 1 })
  else .stop (.noSuchCell (.ring c))

/-- `sample_in(c, v)` (R237, R238). -/
def sampleIn (c : Chan) (v : U16) (s : State) : Flow :=
  if (s.chan c).dmaArmed then storeSample c v s
  else if s.awaitsRearm c then .ends (s.raise (.adcOverrun c))
  else .cont s

/-- The re-arm path of handler `adc[c]` (R239). -/
def rearmChannel (c : Chan) (s : State) : State :=
  let r := s.chan c
  s.setChan c { r with
    blockWrite := nextSlot s.cfg r.blockWrite
    dmaPos := 0
    dmaArmed := true
    blockCount := r.blockCount - 1 }

/-- The completion mark of handler `adc[c]` (R240). -/
def markDone (c : Chan) (s : State) : State := s.setChan c { s.chan c with isDone := true }

/-- The first part of `handoff()` (R241): the timer is stopped and the acquisition is over. -/
def endAcquisition (s : State) : State := { s with timerRunning := false, acqBusy := false }

end Sys2Proof.Machine
end

