-- ==== Sys2Proof/Machine/Commands.lean ====
section
/-! DEFINITION. The meanings of the command rows that M1 dispatches (42_commands.md R202 to R208). Each is the
part of M1 after the frame was taken (R200): `rx_flag` is already cleared. -/

namespace Sys2Proof.Machine

/-- LIVENESS (R202): the reply is the received header, which is that of an empty LIVENESS frame once the length
check has passed. -/
def execLiveness (payload : List Byte) (s : State) : Host.Outcome State Fault Refusal :=
  ((requireLen payload 0 s).andThen
    (fun t => .cont (setReply (some ((Instr.liveness payload).header t.cfg)) t))).outcome

/-- VERSION (R203): the reply carries the 4 version bytes as its argument. -/
def execVersion (payload : List Byte) (s : State) : Host.Outcome State Fault Refusal :=
  ((requireLen payload 0 s).andThen (fun t => .cont (setReply (some (versionReply t.cfg)) t))).outcome

/-- OSC_RUN (R204): the length check, `acquire` on the payload's operands, then the acknowledgement. -/
def execOscRun (payload : List Byte) (s : State) : Host.Outcome State Fault Refusal :=
  match runOperands payload with
  | none => (Flow.ends (s.raise .cmdLength)).outcome
  | some o =>
    ((acquire o.interval o.length s).andThen (fun t => .cont (setReply (some (runAck t.cfg)) t))).outcome

/-- OSC_OTHER (R205): refused; the length is not checked. -/
def execOscOther (_arg : Tag) (_payload : List Byte) (s : State) : Host.Outcome State Fault Refusal :=
  (Flow.ends (s.refuse .oscOther)).outcome

/-- VOLTMETER (R206): refused. -/
def execVoltmeter (_arg : Tag) (_payload : List Byte) (s : State) : Host.Outcome State Fault Refusal :=
  (Flow.ends (s.refuse .voltmeter)).outcome

/-- EXTERNAL (R207): refused. -/
def execExternal (_code : Byte) (_arg : Tag) (_payload : List Byte) (s : State) :
    Host.Outcome State Fault Refusal :=
  (Flow.ends (s.refuse .external)).outcome

/-- K_OTHER (R208): a silent no-op; the frame is consumed and M1 ends with no reply. -/
def execKOther (_arg : Tag) (_payload : List Byte) (s : State) : Host.Outcome State Fault Refusal :=
  .next (setReply none s)

/-- VER_OTHER (R208): a silent no-op. -/
def execVerOther (_arg : Tag) (_payload : List Byte) (s : State) : Host.Outcome State Fault Refusal :=
  .next (setReply none s)

/-- UNSUPPORTED (R208): a silent no-op; the length is not checked. -/
def execUnsupported (_code : Byte) (_arg : Tag) (_payload : List Byte) (s : State) :
    Host.Outcome State Fault Refusal :=
  .next (setReply none s)

end Sys2Proof.Machine
end

