-- ==== Sys2Proof/Machine/Replies.lean ====
section
/-! DEFINITION. The meanings of the reply rows (R109): what it is for the block to send each of its four
frames. A control reply is M2 on its header (R209); the bulk reply is the transmit start of the handoff
(R241, R242). -/

namespace Sys2Proof.Machine

/-- REPLY_LIVENESS (R202, R209). -/
def execReplyLiveness (s : State) : Host.Outcome State Fault Refusal := (sendReply (livenessEcho s.cfg) s).outcome

/-- REPLY_VERSION (R203, R209). -/
def execReplyVersion (s : State) : Host.Outcome State Fault Refusal := (sendReply (versionReply s.cfg) s).outcome

/-- REPLY_RUN_ACK (R204, R209). -/
def execReplyRunAck (s : State) : Host.Outcome State Fault Refusal := (sendReply (runAck s.cfg) s).outcome

/-- REPLY_BULK (R241 to R243): the header, then the `4 * R` bytes of both rings. -/
def execReplyBulk (intra interval : U16) (s : State) : Host.Outcome State Fault Refusal :=
  (startTx (bulkHeader s.cfg intra interval) true (4 * s.cfg.ringSize) s).outcome

end Sys2Proof.Machine
end

