-- ==== Sys2Proof/Machine/Transport.lean ====
section
/-! DEFINITION. The meaning of FRAME_ERROR, the one command row that the transport executes (R164). -/

namespace Sys2Proof.Machine

/-- FRAME_ERROR (R164, R176, R281): the header is dropped silently and reception re-arms; none of its bytes is
used. -/
def execFrameError (_label _code : Byte) (_length : U16) (_arg : Tag) (s : State) : Host.Outcome State Fault Refusal :=
  .next (rearmRx s)

end Sys2Proof.Machine
end

