-- ==== Sys2Proof/Machine/Dispatch.lean ====
section
/-! DEFINITION. What each instruction does: one arm per row of the opcode table. -/

namespace Sys2Proof.Machine

/-- The meaning of an instruction: for a command, M1 after the frame was taken (R201); for FRAME_ERROR, the
receive handler's branch (R164); for a reply row, the start of its transmit (R209, R241). -/
def exec (i : Instr) (s : State) : Host.Outcome State Fault Refusal :=
  match i with
  | .frameError label code length arg => Sys2Proof.Machine.execFrameError label code length arg s
  | .liveness payload => Sys2Proof.Machine.execLiveness payload s
  | .version payload => Sys2Proof.Machine.execVersion payload s
  | .oscRun payload => Sys2Proof.Machine.execOscRun payload s
  | .oscOther arg payload => Sys2Proof.Machine.execOscOther arg payload s
  | .voltmeter arg payload => Sys2Proof.Machine.execVoltmeter arg payload s
  | .external code arg payload => Sys2Proof.Machine.execExternal code arg payload s
  | .kOther arg payload => Sys2Proof.Machine.execKOther arg payload s
  | .verOther arg payload => Sys2Proof.Machine.execVerOther arg payload s
  | .unsupported code arg payload => Sys2Proof.Machine.execUnsupported code arg payload s
  | .replyLiveness => Sys2Proof.Machine.execReplyLiveness s
  | .replyVersion => Sys2Proof.Machine.execReplyVersion s
  | .replyRunAck => Sys2Proof.Machine.execReplyRunAck s
  | .replyBulk intra interval => Sys2Proof.Machine.execReplyBulk intra interval s

end Sys2Proof.Machine
end

