-- ==== Sys2Proof/Machine/Agents.lean ====
section
/-! DEFINITION. The moves of the agents (R20): when each is enabled and what it does. Hardware moves, the five
interrupt handlers (R291), the three main-loop steps (R200, R209, R210), and where a frame lies for the next
step to fetch it. -/

namespace Sys2Proof.Machine

/-! ## When a move is enabled -/

/-- A main-loop step is enabled by its phase (R200, R209, R210). -/
def State.mainEnabled (s : State) : Bool :=
  match s.mlPhase with
  | .idle => s.rxFlag
  | .reply => true
  | .rearm => true

/-- The receive DMA takes bytes in HEADER and PAYLOAD only (R162, R163). -/
def State.rxArmed (s : State) : Bool := decide (s.rxPhase = .header) || decide (s.rxPhase = .payload)

/-- Whether a move is enabled: R161, R162 and R163, R173, R168, R236, R296, and R295 for the main loop. -/
def State.enabled (s : State) : Event → Bool
  | .send _ => true
  | .uart => s.rxArmed && !s.rxFifo.isEmpty
  | .txb => s.txFlag && decide (s.txPos < s.txTotal)
  | .tick => true
  | .sample _ _ => s.timerRunning
  | .isr x => s.pending x
  | .ml => !s.anyPending && s.mainEnabled

/-! ## Hardware moves -/

/-- HOST send (R161). -/
def hostSend (b : Byte) (s : State) : Flow :=
  if s.rxFifo.length < s.cfg.rxFifoDepth then .cont { s with rxFifo := s.rxFifo ++ [b] }
  else .ends (s.raise .rxFifoOverflow)

/-- UART_RX header move (R162) on the byte taken from the queue. -/
def uartHeader (b : Byte) (s : State) : Flow :=
  if s.rxCount < 8 then
    let t := { s with mem := { s.mem with rxh := s.mem.rxh.write s.rxCount b }, rxCount := s.rxCount + 1 }
    if s.rxCount + 1 = 8 then .cont (State.pend { t with rxPhase := .headerDone } .rx) else .cont t
  else .stop (.noSuchCell .rxh)

/-- UART_RX payload move (R163) on the byte taken from the queue. -/
def uartPayload (b : Byte) (s : State) : Flow :=
  if s.rxCount < s.cfg.rxPayloadMax then
    let t := { s with mem := { s.mem with rxp := s.mem.rxp.write s.rxCount b }, rxCount := s.rxCount + 1 }
    if s.rxCount + 1 = s.rxTarget.toNat then .cont (State.pend { t with rxPhase := .payloadDone } .rx) else .cont t
  else .stop (.noSuchCell .rxp)

/-- UART_RX (R162, R163): the head of the queue goes where the armed transfer writes. -/
def uartMove (s : State) : Flow :=
  match s.rxFifo with
  | [] => .cont s
  | b :: rest =>
    match s.rxPhase with
    | .header => uartHeader b { s with rxFifo := rest }
    | .payload => uartPayload b { s with rxFifo := rest }
    | .off => .cont s
    | .headerDone => .cont s
    | .payloadDone => .cont s

/-- TX_DMA byte (R173). -/
def txMove (s : State) : Flow :=
  match txByteAt s s.txPos with
  | .noRule f => .stop f
  | .unwritten => .ends (s.raise .unwritten)
  | .byte b =>
    let t := { s with hostOut := s.hostOut ++ [b], txPos := s.txPos + 1 }
    if s.txPos + 1 = s.txTotal then .cont (t.pend .tx) else .cont t

/-- TICK_TIMER event (R168). -/
def tickMove (s : State) : Flow := .cont (s.pend .tick)

/-- SAMPLE_TIMER tick (R236): channel 0, then channel 1; a fault of channel 0 ends the step (R285). -/
def sampleMove (v0 v1 : U16) (s : State) : Flow := (sampleIn .c0 v0 s).andThen (sampleIn .c1 v1)

/-! ## Interrupt handlers (R291), each on the state after handler entry -/

/-- The receive handler (R164, R165): a header with a wrong label is the instruction FRAME_ERROR. -/
def rxHandler (s : State) : Host.Outcome State Fault Refusal :=
  match s.rxPhase with
  | .headerDone =>
    match s.readRxHeader with
    | .value bytes =>
      match headerOfBytes bytes with
      | some h =>
        match decodePacket s.cfg h with
        | some p => .next (acceptHeader p s)
        | none => exec (frameErrorOf h) s
      | none => .fault (.noSuchCell .rxh)
    | .unwritten => .next (s.raise .unwritten)
    | .absent => .fault (.noSuchCell .rxh)
  | .payloadDone => .next { s with rxPhase := .off, rxFlag := true }
  | .off => .fault .rxHandlerPhase
  | .header => .fault .rxHandlerPhase
  | .payload => .fault .rxHandlerPhase

/-- The transmit handler (R175). -/
def txHandler (s : State) : Host.Outcome State Fault Refusal := .next { s with txFlag := false }

/-- The tick handler, stall detection (R169). -/
def tickHandler (s : State) : Host.Outcome State Fault Refusal :=
  if s.headerPartial then
    if s.rxStalled then .next (forceResetRx s) else .next { s with rxStalled := true }
  else .next { s with rxStalled := false }

/-- `handoff()` (R241): the acquisition ends and the instruction REPLY_BULK starts the bulk reply. -/
def handoff (s : State) : Host.Outcome State Fault Refusal :=
  exec (.replyBulk s.acqIntra s.acqInterval) (endAcquisition s)

/-- Handler `adc[c]` (R239, R240): re-arm while blocks remain, else completion and the rendezvous. -/
def adcHandler (c : Chan) (s : State) : Host.Outcome State Fault Refusal :=
  if (s.chan c).blockCount = 0 then
    if (s.chan c.other).isDone then handoff (markDone c s) else .next (markDone c s)
  else .next (rearmChannel c s)

/-- The handler body of a source (R291). -/
def handlerBody : IntSource → State → Host.Outcome State Fault Refusal
  | .rx, s => rxHandler s
  | .tx, s => txHandler s
  | .adc c, s => adcHandler c s
  | .tick, s => tickHandler s

/-- A state after its handler has returned (R297). -/
def returned : Host.Outcome State Fault Refusal → Host.Outcome State Fault Refusal
  | .next s => .next (returnFromHandler s)
  | .fault f => .fault f
  | .refused r => .refused r

/-- One whole handler run: entry, body, return, in one step (R296, R297). -/
def runHandler (x : IntSource) (s : State) : Host.Outcome State Fault Refusal :=
  returned (handlerBody x (enterHandler x s))

/-! ## Main-loop steps -/

/-- M1 (R200): the frame in `RXH` and `RXP` is taken and the decoded instruction executed. -/
def mainTake (s : State) : Host.Outcome State Fault Refusal :=
  let t := { s with rxFlag := false }
  match t.readRxHeader with
  | .value bytes =>
    match headerOfBytes bytes with
    | some h =>
      match decodePacket t.cfg h with
      | some p =>
        match t.readRxPayload p.length.toNat with
        | .value payload =>
          match decode t.cfg .hostToDevice (bytes ++ payload) with
          | .ok (i, _) => exec i t
          | .error _ => .fault .noCommandAtDispatch
        | .unwritten => .next (t.raise .unwritten)
        | .absent => .fault (.noSuchCell .rxp)
      | none => .fault .noCommandAtDispatch
    | none => .fault (.noSuchCell .rxh)
  | .unwritten => .next (t.raise .unwritten)
  | .absent => .fault (.noSuchCell .rxh)

/-- M2 (R209): a waiting reply is sent, as the reply instruction its header encodes; a header that is none of
the block's frames is started all the same, since R209 starts any. -/
def mainReply (s : State) : Host.Outcome State Fault Refusal :=
  match s.mlReply with
  | none => .next { s with mlPhase := .rearm }
  | some h =>
    match classifyReply s.cfg h with
    | some .replyLiveness => exec .replyLiveness s
    | some .replyVersion => exec .replyVersion s
    | some .replyRunAck => exec .replyRunAck s
    | _ => (sendReply h s).outcome

/-- M3 (R210). -/
def mainRearm (s : State) : Host.Outcome State Fault Refusal := .next { rearmRx s with mlPhase := .idle }

/-- One main-loop step, by `ml_phase` (R46). -/
def mainStep (s : State) : Host.Outcome State Fault Refusal :=
  match s.mlPhase with
  | .idle => mainTake s
  | .reply => mainReply s
  | .rearm => mainRearm s

/-! ## One move -/

/-- What an enabled move does. -/
def moveBody : Event → State → Host.Outcome State Fault Refusal
  | .send b, s => (hostSend b s).outcome
  | .uart, s => (uartMove s).outcome
  | .txb, s => (txMove s).outcome
  | .tick, s => (tickMove s).outcome
  | .sample v0 v1, s => (sampleMove v0 v1 s).outcome
  | .isr x, s => runHandler x s
  | .ml, s => mainStep s

/-- A move: one that is not enabled changes nothing (log 3). -/
def runMove (e : Event) (s : State) : Host.Outcome State Fault Refusal :=
  if s.enabled e then moveBody e s else .next s

/-- The next move and the state with that choice used up: the first of the moves chosen in advance, else a
free value (log 3). -/
def chooseMove (s : State) : Event × State :=
  match s.moves with
  | e :: rest => (e, { s with moves := rest })
  | [] => (Config.freeMove s.drawn, { s with drawn := s.drawn + 1 })

/-! ## Where the next frame lies -/

/-- A frame laid where the very next step executes it. A frame M1 would dispatch lies in `RXH` and `RXP` with
`rx_flag` set, and the next move is a main-loop step. A header the receive handler itself decides (a wrong
label, or a payload too long for the buffer) lies in `RXH` as a completed header transfer, and the next move
is that handler. -/
def placeFrame (h : Header) (payload : List Byte) (s : State) : State :=
  let m := { s.mem with rxh := s.mem.rxh.writeList 0 h.bytes }
  if h.b0 = s.cfg.label ∧ payload.length ≤ s.cfg.rxPayloadMax then
    { s with
      mem := { m with rxp := m.rxp.writeList 0 payload }
      rxPhase := .off
      rxFlag := true
      mlPhase := .idle
      pendRx := false
      pendTx := false
      pendTick := false
      ch0 := { s.ch0 with pendAdc := false }
      ch1 := { s.ch1 with pendAdc := false }
      moves := .ml :: s.moves }
  else
    { s with
      mem := m
      rxPhase := .headerDone
      rxCount := 8
      pendRx := true
      moves := .isr .rx :: s.moves }

end Sys2Proof.Machine
end

