-- ==== Sys2Proof/Machine/Step.lean ====
section
/-! DEFINITION. One step of the machine: one move of one agent (R20, R84). -/

namespace Sys2Proof.Machine

/-- One step: an inadmissible configuration is refused (R23); otherwise the next move is made. -/
def step (s : State) : Host.Outcome State Fault Refusal :=
  if s.cfg.admissible then runMove (chooseMove s).1 (chooseMove s).2 else .refused .inadmissibleConfig

/-- The state whose very next step executes the frame numbered `w` (the opcode table's bit numbering; the bits
from `nbits` on are 0). It stands for the link delivering that frame from outside (log 2). -/
def State.withFetchWord (s : State) (nbits w : Nat) : State :=
  placeFrame (wordHeader nbits w) (wordPayload nbits w) s

end Sys2Proof.Machine
end

