-- ==== Sys2Proof/Safety.lean ====
section
/-! DEFINITION. What counts as a safe run, in the terms the statements use: the final states and the
observation of R309, the invariants of the machine (R55, R244, R249), and runs of moves. -/

namespace Sys2Proof.Machine

/-! ## Final states and the observation (R309) -/

/-- Some move of an agent other than HOST, TICK_TIMER and the CPU's tick handler is enabled (R309). -/
def State.busy (s : State) : Bool :=
  s.enabled .uart || s.enabled .txb || s.timerRunning || s.pending .rx || s.pending .tx ||
    s.pending (.adc .c0) || s.pending (.adc .c1) || s.enabled .ml

/-- A run is at an end (R309): a marked state never is (R285, R290). -/
def State.final (s : State) : Bool :=
  !s.busy && s.unmarked && decide (s.mlPhase = .idle) && !s.rxFlag && !s.txFlag && !s.acqBusy

/-- What a run shows (R309): the bytes the host received and both rings. -/
structure Observation where
  hostOut : List Byte
  ring0 : Mem 16
  ring1 : Mem 16
  deriving DecidableEq, Repr

/-- The observation of a state. -/
def State.observe (s : State) : Observation := ⟨s.hostOut, s.mem.ring0, s.mem.ring1⟩

/-! ## Where the host finds a capture (R246) -/

/-- The ring cell of the chronological index `u` once an acquisition has ended (R246). -/
def chronoCell (c : Config) (u : Nat) : Nat :=
  ringIndex c ((u / c.nSamples + 1) % c.nBlocks) (u % c.nSamples)

/-- Where channel `c`'s samples start in the payload of a bulk reply (R174). -/
def bulkBase (c : Config) : Chan → Nat
  | .c0 => 0
  | .c1 => 2 * c.ringSize

/-! ## Runs of moves -/

/-- The moves of a list made one after another; the first that stops ends the run. -/
def runMoves : List Event → State → Host.Outcome State Fault Refusal
  | [], s => .next s
  | e :: rest, s =>
    match runMove e s with
    | .next t => runMoves rest t
    | .fault f => .fault f
    | .refused r => .refused r

/-- One block of an acquisition and the two handler runs after it: the ticks of block `k`, tick `t` giving the
conversions `f0 t` and `f1 t`. -/
def blockMoves (n : Nat) (f0 f1 : Nat → U16) (k : Nat) : List Event :=
  (List.range n).map (fun p => .sample (f0 (k * n + p)) (f1 (k * n + p))) ++ [.isr (.adc .c0), .isr (.adc .c1)]

/-- An acquisition's moves when each block's handlers run before the next tick: the `N_BLOCKS + off + 1` blocks
of R244. -/
def captureMoves (c : Config) (off : Nat) (f0 f1 : Nat → U16) : List Event :=
  (List.range (c.nBlocks + off + 1)).flatMap (blockMoves c.nSamples f0 f1)

/-! ## What two states agree on -/

/-- The receive fields agree. -/
def sameReceive (s t : State) : Prop :=
  t.rxFlag = s.rxFlag ∧ t.rxStalled = s.rxStalled ∧ t.rxPhase = s.rxPhase ∧ t.rxCount = s.rxCount ∧
    t.rxTarget = s.rxTarget ∧ t.rxFifo = s.rxFifo ∧ t.pendRx = s.pendRx

/-- The transmit fields agree. -/
def sameTransmit (s t : State) : Prop :=
  t.txFlag = s.txFlag ∧ t.txPos = s.txPos ∧ t.txTotal = s.txTotal ∧ t.txBulk = s.txBulk ∧ t.pendTx = s.pendTx

/-- The channel records, the acquisition record and the sample timer agree. -/
def sameAcquisition (s t : State) : Prop :=
  t.ch0 = s.ch0 ∧ t.ch1 = s.ch1 ∧ t.acqBusy = s.acqBusy ∧ t.acqInterval = s.acqInterval ∧
    t.acqLength = s.acqLength ∧ t.acqOffsetBlocks = s.acqOffsetBlocks ∧ t.acqIntra = s.acqIntra ∧
    t.timerRunning = s.timerRunning ∧ t.timerInterval = s.timerInterval

/-- The configuration, the tick's pending bit, the bytes sent and the model's own fields agree. -/
def sameRest (s t : State) : Prop :=
  t.cfg = s.cfg ∧ t.pendTick = s.pendTick ∧ t.hostOut = s.hostOut ∧ t.moves = s.moves ∧ t.drawn = s.drawn

/-- Every cell of every memory but `TXH` reads the same. -/
def sameOtherCells (s t : State) : Prop :=
  (∀ c a, (t.mem.ring c).read a = (s.mem.ring c).read a) ∧ (∀ a, t.mem.rxh.read a = s.mem.rxh.read a) ∧
    (∀ a, t.mem.rxp.read a = s.mem.rxp.read a)

/-- Every cell of every memory reads the same. -/
def sameCells (s t : State) : Prop := sameOtherCells s t ∧ ∀ a, t.mem.txh.read a = s.mem.txh.read a

/-! ## Invariants -/

/-- A cell has been written. -/
def Mem.written {w : Nat} (m : Mem w) (a : Nat) : Prop := ∃ v, m.read a = some v

/-- The cells below `n` have been written. -/
def Mem.writtenBelow {w : Nat} (m : Mem w) (n : Nat) : Prop := ∀ a, a < n → m.written a

/-- `RXH` holds a whole header whose label is right and which declares `n` payload bytes. -/
def State.headerHeld (s : State) (n : Nat) : Prop :=
  ∃ h : Header, s.readRxHeader = .value h.bytes ∧ h.b0 = s.cfg.label ∧ h.lengthField.toNat = n

/-- The receive side (R34, R35, R90, R167). -/
structure State.RxInv (s : State) : Prop where
  fifo : s.rxFifo.length ≤ s.cfg.rxFifoDepth
  inHeader : s.rxPhase = .header → s.rxCount ≤ 7 ∧ s.mem.rxh.writtenBelow s.rxCount
  inHeaderDone : s.rxPhase = .headerDone → s.rxCount = 8 ∧ s.mem.rxh.writtenBelow 8
  inPayload : s.rxPhase = .payload →
    s.rxCount < s.rxTarget.toNat ∧ s.rxTarget.toNat ≤ s.cfg.rxPayloadMax ∧
      s.headerHeld s.rxTarget.toNat ∧ s.mem.rxp.writtenBelow s.rxCount
  inPayloadDone : s.rxPhase = .payloadDone →
    s.rxCount = s.rxTarget.toNat ∧ 1 ≤ s.rxTarget.toNat ∧ s.rxTarget.toNat ≤ s.cfg.rxPayloadMax ∧
      s.headerHeld s.rxTarget.toNat ∧ s.mem.rxp.writtenBelow s.rxCount
  pendingDone : s.pendRx = true → s.rxPhase = .headerDone ∨ s.rxPhase = .payloadDone
  flagOff : s.rxFlag = true → s.rxPhase = .off ∧ s.mlPhase = .idle
  frameHeld : s.rxFlag = true →
    ∃ n, n ≤ s.cfg.rxPayloadMax ∧ s.headerHeld n ∧ s.mem.rxp.writtenBelow n
  mainOff : s.mlPhase ≠ .idle → s.rxPhase = .off

/-- The main loop's reply is one of the block's control replies, and waits only in REPLY (R46, R200, R209). -/
structure State.ReplyInv (s : State) : Prop where
  onlyInReply : s.mlPhase ≠ .reply → s.mlReply = none
  known : ∀ h, s.mlReply = some h → h = livenessEcho s.cfg ∨ h = versionReply s.cfg ∨ h = runAck s.cfg

/-- Every cell of both rings has been written. -/
def State.ringsWritten (s : State) : Prop :=
  s.mem.ring0.writtenBelow s.cfg.ringSize ∧ s.mem.ring1.writtenBelow s.cfg.ringSize

/-- The transmit side (R37, R91, R174, R244): a transmit in flight has its header, and its rings if it is bulk. -/
structure State.TxInv (s : State) : Prop where
  inFlight : s.txFlag = true →
    s.mem.txh.writtenBelow 8 ∧ s.txPos ≤ s.txTotal ∧
      ((s.txBulk = false ∧ s.txTotal = 8) ∨
        (s.txBulk = true ∧ s.txTotal = 8 + 4 * s.cfg.ringSize ∧ s.ringsWritten))
  pendingEnd : s.pendTx = true → s.txFlag = true ∧ s.txPos = s.txTotal

/-- How many blocks after the one in `block_write[c]` the slot `x` comes in ring order. -/
def slotDistance (c : Config) (r : Channel) (x : Nat) : Nat := (x + c.nBlocks - r.blockWrite.toNat) % c.nBlocks

/-- One channel (R39 to R41, R55, R244, R245): slot and position in range, the armed, pending and done states
exclusive, the slot arithmetic that makes the last block land in slot 0, and the cells the capture has
written so far. -/
structure State.ChanInv (s : State) (c : Chan) : Prop where
  slotInRange : (s.chan c).blockWrite.toNat < s.cfg.nBlocks
  posInRange : (s.chan c).dmaPos < s.cfg.nSamples
  countBound : (s.chan c).blockCount.toNat ≤ 2 * s.cfg.nBlocks
  landsOnZero : ((s.chan c).blockWrite.toNat + (s.chan c).blockCount.toNat) % s.cfg.nBlocks = 0
  armedBusy : (s.chan c).dmaArmed = true →
    s.acqBusy = true ∧ (s.chan c).isDone = false ∧ (s.chan c).pendAdc = false
  pendingBusy : (s.chan c).pendAdc = true → s.acqBusy = true ∧ (s.chan c).isDone = false
  busyActive : s.acqBusy = true →
    (s.chan c).dmaArmed = true ∨ (s.chan c).pendAdc = true ∨ (s.chan c).isDone = true
  doneCount : (s.chan c).isDone = true → (s.chan c).blockCount = 0
  earlierBlocks : ∀ x p, x < s.cfg.nBlocks → p < s.cfg.nSamples →
    ((s.chan c).dmaArmed = true ∨ (s.chan c).pendAdc = true ∨ (s.chan c).isDone = true) →
      (s.chan c).blockCount.toNat < slotDistance s.cfg (s.chan c) x →
        (s.mem.ring c).written (ringIndex s.cfg x p)
  currentBlock : ∀ p, p < s.cfg.nSamples →
    (((s.chan c).dmaArmed = true ∧ p < (s.chan c).dmaPos) ∨
      (s.chan c).pendAdc = true ∨ (s.chan c).isDone = true) →
        (s.mem.ring c).written (ringIndex s.cfg (s.chan c).blockWrite.toNat p)

/-- The acquisition record (R42, R43, R55.5). -/
structure State.AcqInv (s : State) : Prop where
  timerBusy : s.timerRunning = s.acqBusy
  bothDone : s.ch0.isDone = true → s.ch1.isDone = true → s.acqBusy = false

/-- The invariant of the machine: it holds after reset, every step keeps it, and no step stops in it. It
holds in marked states too. -/
structure State.Inv (s : State) : Prop where
  config : s.cfg.admissible
  memory : s.mem.wf ∧ s.mem.inBounds s.cfg
  receive : s.RxInv
  reply : s.ReplyInv
  transmit : s.TxInv
  channel : ∀ c, s.ChanInv c
  acquisition : s.AcqInv
  neverUnwritten : FaultName.unwritten ∉ s.faults

/-- The capture registers of two channels agree (R55.6, R249). -/
abbrev sameCapture (a b : Channel) : Prop :=
  a.blockCount = b.blockCount ∧ a.blockWrite = b.blockWrite ∧ a.dmaPos = b.dmaPos ∧ a.dmaArmed = b.dmaArmed

/-- R249: the channels agree whenever neither `adc` handler is pending. -/
def State.Aligned (s : State) : Prop :=
  s.ch0.pendAdc = false → s.ch1.pendAdc = false → sameCapture s.ch0 s.ch1

/-- Channel `a`'s handler has run for a block and channel `b`'s has not: `a` is one re-arm ahead, or done. -/
abbrev oneAhead (c : Config) (a b : Channel) : Prop :=
  b.pendAdc = true ∧ b.dmaArmed = false ∧ b.dmaPos = 0 ∧ b.isDone = false ∧ a.pendAdc = false ∧ a.dmaPos = 0 ∧
    ((b.blockCount ≠ 0 ∧ a.dmaArmed = true ∧ a.isDone = false ∧ a.blockCount = b.blockCount - 1 ∧
        a.blockWrite = nextSlot c b.blockWrite) ∨
      (b.blockCount = 0 ∧ a.dmaArmed = false ∧ a.isDone = true ∧ a.blockCount = 0 ∧ a.blockWrite = b.blockWrite))

/-- Lockstep of the two channels in an acquisition that no fault has marked (R249): they agree, or one handler
of a block boundary has run and the other is pending. -/
structure State.Lockstep (s : State) : Prop where
  running : s.faults = [] → s.acqBusy = true →
    (sameCapture s.ch0 s.ch1 ∧ s.ch0.pendAdc = s.ch1.pendAdc ∧ s.ch0.isDone = false ∧ s.ch1.isDone = false ∧
        s.ch0.dmaArmed = !s.ch0.pendAdc ∧ (s.ch0.pendAdc = true → s.ch0.dmaPos = 0)) ∨
      oneAhead s.cfg s.ch0 s.ch1 ∨ oneAhead s.cfg s.ch1 s.ch0
  resting : s.faults = [] → s.acqBusy = false →
    sameCapture s.ch0 s.ch1 ∧ s.ch0.isDone = s.ch1.isDone ∧ s.ch0.pendAdc = false ∧ s.ch1.pendAdc = false ∧
      s.ch0.dmaArmed = false

end Sys2Proof.Machine
end

