-- ==== Sys2Proof/Certificates/Slice0/Obligations.lean ====
section
/-! DEFINITION. The statements about the machine, each from the rules its docstring names. A state that carries
a fault or refusal mark describes the model's run and no longer the chip (R285, R290, log 4). -/

open Sys2Proof Sys2Proof.Machine

/-! ## One step (R20, R23, R84) -/

/-- R20: a step is one move of one agent: the first of the moves chosen in advance, else a free one (log 3). -/
def Obligations.StepMakesTheNextMove : Prop :=
  ∀ s : State, s.cfg.admissible →
    (∀ e rest, s.moves = e :: rest → step s = runMove e { s with moves := rest }) ∧
      (s.moves = [] → step s = runMove (Config.freeMove s.drawn) { s with drawn := s.drawn + 1 })

/-- R23: a model refuses an inadmissible configuration. -/
def Obligations.InadmissibleConfigRefused : Prop :=
  ∀ s : State, ¬ s.cfg.admissible → step s = .refused .inadmissibleConfig

/-- R200, R201: a main-loop step with a whole frame received executes the instruction its bytes decode to, on
the state with that move used up and `rx_flag` cleared. -/
def Obligations.StepRunsTheReceivedCommand : Prop :=
  ∀ (s : State) (rest : List Event) (h : Header) (payload : List Byte) (i : Instr),
    s.cfg.admissible → s.moves = .ml :: rest → s.mlPhase = .idle → s.rxFlag = true → s.anyPending = false →
    s.readRxHeader = .value h.bytes → h.b0 = s.cfg.label →
    s.readRxPayload h.lengthField.toNat = .value payload →
    decode s.cfg .hostToDevice (h.bytes ++ payload) = .ok (i, []) →
      step s = exec i { s with moves := rest, rxFlag := false }

/-- R164, R281: the receive handler on a completed header with a wrong label executes FRAME_ERROR, on the state
with that move used up and the pending bit cleared. -/
def Obligations.StepRunsTheFrameError : Prop :=
  ∀ (s : State) (rest : List Event) (h : Header),
    s.cfg.admissible → s.moves = .isr .rx :: rest → s.pendRx = true → s.rxPhase = .headerDone →
    s.readRxHeader = .value h.bytes → h.b0 ≠ s.cfg.label →
      decode s.cfg .hostToDevice h.bytes = .ok (frameErrorOf h, []) ∧
        step s = exec (frameErrorOf h) { s with moves := rest, pendRx := false }

/-- R209: a main-loop step with a reply waiting executes the reply instruction its header decodes to. -/
def Obligations.StepRunsTheWaitingReply : Prop :=
  ∀ (s : State) (rest : List Event) (h : Header) (i : Instr),
    s.cfg.admissible → s.moves = .ml :: rest → s.mlPhase = .reply → s.anyPending = false → s.mlReply = some h →
    decode s.cfg .deviceToHost h.bytes = .ok (i, []) → (∀ intra interval, i ≠ .replyBulk intra interval) →
      step s = exec i { s with moves := rest }

/-- R240, R241: the handler of the second channel to finish ends the acquisition and executes REPLY_BULK with
the recorded offset and interval. -/
def Obligations.StepRunsTheBulkReply : Prop :=
  ∀ (s : State) (rest : List Event) (c : Chan),
    s.cfg.admissible → s.moves = .isr (.adc c) :: rest → (s.chan c).pendAdc = true →
    (s.chan c).blockCount = 0 → (s.chan c.other).isDone = true →
      step s = exec (.replyBulk s.acqIntra s.acqInterval)
        ({ s with moves := rest, timerRunning := false, acqBusy := false }.setChan c
          { s.chan c with pendAdc := false, isDone := true })

/-- The frame a host lays down runs in the very next step (log 2): whatever the state was, after `placeFrame`
of a header with the right label and a payload that fits, the step executes the decoded instruction. -/
def Obligations.PlacedFrameRunsNext : Prop :=
  ∀ (s : State) (h : Header) (payload : List Byte),
    s.cfg.admissible → h.b0 = s.cfg.label → payload.length = h.lengthField.toNat →
    payload.length ≤ s.cfg.rxPayloadMax →
      ∃ i, decode s.cfg .hostToDevice (h.bytes ++ payload) = .ok (i, []) ∧
        step (placeFrame h payload s) = exec i { placeFrame h payload s with moves := s.moves, rxFlag := false }

/-! ## Encoding (30_encoding.md, 40_codec.md) -/

/-- R100 to R110, R146: decoding the encoding of a well-formed instruction, in its own direction, gives it back
with every operand, and the bytes after it. -/
def Obligations.DecodeOfEncode : Prop :=
  ∀ (c : Config) (i : Instr) (rest : List Byte), i.wellFormed c = true →
    decode c i.direction (encode c i ++ rest) = .ok (i, rest)

/-- R102, R103, R106: a received frame has one meaning: what decodes to an instruction is that instruction's
encoding and the rest, and the instruction is a well-formed command. -/
def Obligations.EncodeOfDecode : Prop :=
  ∀ (c : Config) (bytes rest : List Byte) (i : Instr), decode c .hostToDevice bytes = .ok (i, rest) →
    encode c i ++ rest = bytes ∧ i.wellFormed c = true ∧ i.direction = .hostToDevice

/-- R146, the round-trip law, on packets and on the payload bytes after the header. -/
def Obligations.PacketRoundTrip : Prop :=
  ∀ (c : Config) (p : Packet) (payload : List Byte), p.label = c.label →
    (p.length = 0 → decodePacket c (encodeCtrl c p.code p.arg) = some p) ∧
      (p.length ≠ 0 → decodePacket c (encodeBulk c p.code p.length p.arg) = some p ∧
        takeHeader ((encodeBulk c p.code p.length p.arg).bytes ++ payload) =
          some (encodeBulk c p.code p.length p.arg, payload))

/-- R141: FrameError exactly on a label mismatch; otherwise the four fields, length little-endian. -/
def Obligations.DecodePacketFields : Prop :=
  ∀ (c : Config) (h : Header),
    (h.b0 ≠ c.label → decodePacket c h = none) ∧
      (h.b0 = c.label → ∃ p, decodePacket c h = some p ∧ p.label = h.b0 ∧ p.code = h.b1 ∧
        p.length.toNat = h.b2.toNat + 256 * h.b3.toNat ∧ p.arg = ⟨h.b4, h.b5, h.b6, h.b7⟩)

/-- R142: a FrameError consumes the whole 8-byte header, and only it. -/
def Obligations.FrameErrorConsumesTheHeader : Prop :=
  ∀ (c : Config) (h : Header) (rest : List Byte), h.b0 ≠ c.label →
    ∃ i, decode c .hostToDevice (h.bytes ++ rest) = .ok (i, rest) ∧ i.mnemonic = "FRAME_ERROR"

/-- R102: the first row of the opcode table that selects a header, rows tried in increasing precedence, is the
row of the instruction the decoder gives. -/
def Obligations.DecoderAgreesWithOpcodeTable : Prop :=
  ∀ (c : Config) (h : Header) (payload : List Byte), payload.length = h.lengthField.toNat →
    ∃ i rest, decode c .hostToDevice (h.bytes ++ payload) = .ok (i, rest) ∧ tableRow c h = some i.mnemonic

/-- R147: every frame the block sends decodes without FrameError: R143 and R144 write `LABEL`, and a waiting
reply, the liveness echo among them, is a header whose label is right. -/
def Obligations.SentFramesPassTheLabelCheck : Prop :=
  (∀ (c : Config) (code : Byte) (arg : Tag), decodePacket c (encodeCtrl c code arg) ≠ none) ∧
    (∀ (c : Config) (code : Byte) (length : U16) (m : Tag), decodePacket c (encodeBulk c code length m) ≠ none) ∧
    (∀ (s : State) (h : Header), s.Inv → s.mlReply = some h → decodePacket s.cfg h ≠ none)

/-- R145: tag equality is equality of the four bytes. -/
def Obligations.TagEqualityIsBytewise : Prop :=
  ∀ a b : Tag, tagEq a b = true ↔ a.t0 = b.t0 ∧ a.t1 = b.t1 ∧ a.t2 = b.t2 ∧ a.t3 = b.t3

/-- Words written out from R101, R105 and R109 decode to the instructions they stand for (95_test_vectors.md
V-C10, V-C11, V-C12, V-K5, V-K8, V-K9, V-K10; LABEL 0x4C is the test value). -/
def Obligations.SpecWordsDecode : Prop :=
  decode Config.tc .hostToDevice [0x4C, 0x6B, 0x00, 0x00, 0x6E, 0x6F, 0x63, 0x6B] = .ok (.liveness [], []) ∧
  decode Config.tc .hostToDevice [0x4C, 0x38, 0x00, 0x00, 0x76, 0x65, 0x72, 0x3F] = .ok (.version [], []) ∧
  decode Config.tc .hostToDevice [0x4C, 0x6F, 0x04, 0x00, 0x72, 0x75, 0x6E, 0x21, 0x64, 0x00, 0x04, 0x00] =
    .ok (.oscRun [0x64, 0x00, 0x04, 0x00], []) ∧
  decode Config.tc .hostToDevice [0x4C, 0x6F, 0x00, 0x00, 0x66, 0x74, 0x63, 0x68] =
    .ok (.oscOther ⟨0x66, 0x74, 0x63, 0x68⟩ [], []) ∧
  decode Config.tc .hostToDevice [0x4C, 0x76, 0x00, 0x00, 0x73, 0x74, 0x72, 0x74] =
    .ok (.voltmeter ⟨0x73, 0x74, 0x72, 0x74⟩ [], []) ∧
  decode Config.tc .hostToDevice [0x00, 0x38, 0x00, 0x00, 0x76, 0x65, 0x72, 0x3F] =
    .ok (.frameError 0x00 0x38 0 Tag.ver, []) ∧
  decode Config.tc .deviceToHost [0x4C, 0x6F, 0x40, 0x00, 0x02, 0x00, 0x32, 0x00] = .ok (.replyBulk 2 50, [])

/-! ## Commands (42_commands.md) -/

/-- R202: LIVENESS of length 0 makes its own header the reply, so when `RXH` holds the received bytes the reply
is those bytes; with any payload it is `F_CMD_LENGTH` and nothing else. -/
def Obligations.LivenessEchoesTheHeader : Prop :=
  (∀ s : State, exec (.liveness []) s =
    .next { s with mlReply := some ⟨s.cfg.label, 0x6B, 0, 0, 0x6E, 0x6F, 0x63, 0x6B⟩, mlPhase := .reply }) ∧
  (∀ (s : State) (h : Header), s.readRxHeader = .value h.bytes →
    decode s.cfg .hostToDevice h.bytes = .ok (.liveness [], []) →
      exec (.liveness []) s = .next { s with mlReply := some h, mlPhase := .reply }) ∧
  (∀ (s : State) (payload : List Byte), payload ≠ [] → exec (.liveness payload) s = .next (s.raise .cmdLength))

/-- R203: VERSION of length 0 replies `[LABEL, '8', 0, 0] ++ VERSION`; with any payload it is `F_CMD_LENGTH`. -/
def Obligations.VersionReplyCarriesTheVersion : Prop :=
  (∀ s : State, exec (.version []) s =
    .next { s with
      mlReply := some ⟨s.cfg.label, 0x38, 0, 0, s.cfg.version.t0, s.cfg.version.t1, s.cfg.version.t2,
        s.cfg.version.t3⟩
      mlPhase := .reply }) ∧
  (∀ (s : State) (payload : List Byte), payload ≠ [] → exec (.version payload) s = .next (s.raise .cmdLength))

/-- R204, R232, R234: an accepted run command arms both channels alike, records the acquisition, starts the
sample timer and makes the acknowledgement the reply. -/
def Obligations.OscRunStartsAnAcquisition : Prop :=
  ∀ (s : State) (p0 p1 p2 p3 : Byte) (off intra : Nat),
    s.acqBusy = false → le16 p0 p1 ≠ 0 → s.cfg.admitsLength (le16 p2 p3).toNat →
    offsetOf s.cfg (le16 p2 p3).toNat = (off, intra) →
      exec (.oscRun [p0, p1, p2, p3]) s = .next { s with
        ch0 := { s.ch0 with
          isDone := false, blockCount := BitVec.ofNat 32 (s.cfg.nBlocks + off)
          blockWrite := BitVec.ofNat 32 (s.cfg.nBlocks - off) &&& s.cfg.mask, dmaPos := 0, dmaArmed := true }
        ch1 := { s.ch1 with
          isDone := false, blockCount := BitVec.ofNat 32 (s.cfg.nBlocks + off)
          blockWrite := BitVec.ofNat 32 (s.cfg.nBlocks - off) &&& s.cfg.mask, dmaPos := 0, dmaArmed := true }
        acqBusy := true
        acqInterval := le16 p0 p1
        acqLength := le16 p2 p3
        acqOffsetBlocks := BitVec.ofNat 32 off
        acqIntra := BitVec.ofNat 16 intra
        timerInterval := le16 p0 p1
        timerRunning := true
        mlReply := some ⟨s.cfg.label, 0x6F, 0, 0, 0x72, 0x75, 0x6E, 0x21⟩
        mlPhase := .reply }

/-- R201, R231, R289: a run command that meets several faults raises the first in the order wrong length,
acquisition running, interval 0, window length; and has no other effect. -/
def Obligations.OscRunFaultsInOrder : Prop :=
  (∀ (s : State) (payload : List Byte), payload.length ≠ 4 →
    exec (.oscRun payload) s = .next (s.raise .cmdLength)) ∧
  (∀ (s : State) (p0 p1 p2 p3 : Byte),
    exec (.oscRun [p0, p1, p2, p3]) s =
      if s.acqBusy = true then .next (s.raise .acqBusy)
      else if le16 p0 p1 = 0 then .next (s.raise .interval)
      else if (le16 p2 p3).toNat = 0 ∨ (le16 p2 p3).toNat % 2 ≠ 0 ∨ s.cfg.window < (le16 p2 p3).toNat then
        .next (s.raise .window)
      else .next (setReply (some (runAck s.cfg)) (acquireStart (le16 p0 p1) (le16 p2 p3) s)))

/-- R205, R206, R207, R290: the three refused rows set the refusal mark if there is none and do nothing else;
in particular `ml_phase` stays, so no reply is built and reception is not re-armed. -/
def Obligations.RefusedRowsSetTheMark : Prop :=
  ∀ (s : State) (code : Byte) (arg : Tag) (payload : List Byte),
    (s.refused = none →
      exec (.oscOther arg payload) s = .next { s with refused := some .oscOther } ∧
      exec (.voltmeter arg payload) s = .next { s with refused := some .voltmeter } ∧
      exec (.external code arg payload) s = .next { s with refused := some .external }) ∧
    (s.refused ≠ none →
      exec (.oscOther arg payload) s = .next s ∧ exec (.voltmeter arg payload) s = .next s ∧
      exec (.external code arg payload) s = .next s)

/-- R208, R283: an unsupported command, whatever its length, ends M1 with no reply and does nothing else. -/
def Obligations.UnsupportedIsASilentNoOp : Prop :=
  ∀ (s : State) (code : Byte) (arg : Tag) (payload : List Byte),
    exec (.kOther arg payload) s = .next { s with mlReply := none, mlPhase := .reply } ∧
      exec (.verOther arg payload) s = .next { s with mlReply := none, mlPhase := .reply } ∧
      exec (.unsupported code arg payload) s = .next { s with mlReply := none, mlPhase := .reply }

/-- R176, R281: a FRAME_ERROR header is dropped and reception re-arms for the next 8 bytes; nothing else. -/
def Obligations.FrameErrorRearmsReception : Prop :=
  ∀ (s : State) (label code : Byte) (length : U16) (arg : Tag),
    exec (.frameError label code length arg) s =
      .next { s with rxPhase := .header, rxCount := 0, rxStalled := false }

/-- The frame of the command rows (R201 to R208): reception, transmission, every memory cell, the bytes sent and
every pending bit are unchanged; only OSC_RUN touches the acquisition, only the three rows with a required length
add a fault, only the refused rows set the refusal mark; and a command that ends with a mark (`ml_phase` as it was)
has no other effect. -/
def Obligations.CommandsLeaveTheRestAlone : Prop :=
  ∀ (i : Instr) (s t : State), i.direction = .hostToDevice → i.mnemonic ≠ "FRAME_ERROR" → exec i s = .next t →
    sameReceive s t ∧ sameTransmit s t ∧ sameRest s t ∧ sameCells s t ∧
      (i.mnemonic ≠ "OSC_RUN" → sameAcquisition s t) ∧
      (∀ c, (t.chan c).pendAdc = (s.chan c).pendAdc) ∧
      (i.mnemonic ∉ ["LIVENESS", "VERSION", "OSC_RUN"] → t.faults = s.faults) ∧
      (i.mnemonic ∉ ["OSC_OTHER", "VOLTMETER", "EXTERNAL"] → t.refused = s.refused) ∧
      (t.mlPhase = s.mlPhase → s.mlPhase ≠ .reply → t.mlReply = s.mlReply ∧ sameAcquisition s t)

/-! ## Replies (R109, R172, R209, R241) -/

/-- R172, R209: sending a control reply starts an 8-byte transmit of its header and leaves M3 next. -/
def Obligations.ControlReplyStartsTheTransmit : Prop :=
  ∀ (s : State) (i : Instr), (i = .replyLiveness ∨ i = .replyVersion ∨ i = .replyRunAck) → s.txFlag = false →
    exec i s = .next { s with
      mem := { s.mem with txh := s.mem.txh.writeList 0 (i.header s.cfg).bytes }
      txBulk := false, txPos := 0, txTotal := 8, txFlag := true, mlReply := none, mlPhase := .rearm }

/-- R172, R242: the bulk reply starts a transmit of `8 + 4 * R` bytes whose header carries `'o'`, the length
`4 * R`, the offset and the interval, all little-endian. -/
def Obligations.BulkReplyStartsTheTransmit : Prop :=
  ∀ (s : State) (intra interval : U16), s.txFlag = false →
    let bytes := [s.cfg.label, 0x6F] ++ bytesLE16 (BitVec.ofNat 16 (4 * s.cfg.ringSize)) ++ bytesLE16 intra ++
      bytesLE16 interval
    exec (.replyBulk intra interval) s = .next { s with
      mem := { s.mem with txh := s.mem.txh.writeList 0 bytes }
      txBulk := true, txPos := 0, txTotal := 8 + 4 * s.cfg.ringSize, txFlag := true }

/-- R172: a transmit start while one is in flight is `F_TX_OVERLAP` and nothing else, for every reply row. -/
def Obligations.OverlappingTransmitFaults : Prop :=
  ∀ (s : State) (i : Instr), i.direction = .deviceToHost → s.txFlag = true →
    exec i s = .next (s.raise .txOverlap)

/-- The frame of the reply rows: reception, the acquisition, every cell but `TXH[0..7]` and the bytes sent are
unchanged, no refusal is marked, and the cells of `TXH` are unchanged too if a transmit was in flight. -/
def Obligations.RepliesLeaveTheRestAlone : Prop :=
  ∀ (i : Instr) (s t : State), i.direction = .deviceToHost → exec i s = .next t →
    sameReceive s t ∧ sameAcquisition s t ∧ sameRest s t ∧ sameOtherCells s t ∧ t.pendTx = s.pendTx ∧
      t.refused = s.refused ∧ (∀ a, 8 ≤ a → t.mem.txh.read a = s.mem.txh.read a) ∧
      (s.txFlag = true → sameTransmit s t ∧ sameCells s t ∧ t.mlPhase = s.mlPhase ∧ t.mlReply = s.mlReply) ∧
      (s.txFlag = false → t.faults = s.faults ∧
        ∀ a, a < 8 → t.mem.txh.read a = (i.header s.cfg).bytes[a]?)

/-! ## Receive side (41_transport.md) -/

/-- R161: a host byte joins the queue, or is `F_RX_FIFO_OVERFLOW` when the queue is full. -/
def Obligations.HostByteIsQueued : Prop :=
  ∀ (s : State) (b : Byte), runMove (.send b) s =
    if s.rxFifo.length < s.cfg.rxFifoDepth then .next { s with rxFifo := s.rxFifo ++ [b] }
    else .next (s.raise .rxFifoOverflow)

/-- R162: a header move takes the queue's head into `RXH[rx_count]`; the 8th completes the header. The last clause,
that the move leaves the state alone with an empty queue or no armed transfer, is the model's choice (log 3): R162
and R163 say only that it is not enabled there. -/
def Obligations.HeaderByteMoves : Prop :=
  (∀ (s : State) (b : Byte) (rest : List Byte), s.rxPhase = .header → s.rxFifo = b :: rest → s.rxCount < 8 →
    (s.rxCount + 1 ≠ 8 → runMove .uart s = .next { s with
      rxFifo := rest, mem := { s.mem with rxh := s.mem.rxh.write s.rxCount b }, rxCount := s.rxCount + 1 }) ∧
    (s.rxCount + 1 = 8 → runMove .uart s = .next { s with
      rxFifo := rest, mem := { s.mem with rxh := s.mem.rxh.write s.rxCount b }, rxCount := 8
      rxPhase := .headerDone, pendRx := true })) ∧
  (∀ s : State, s.rxFifo = [] ∨ s.rxPhase ≠ .header ∧ s.rxPhase ≠ .payload → runMove .uart s = .next s)

/-- R163: a payload move takes the queue's head into `RXP[rx_count]`; the last completes the payload. -/
def Obligations.PayloadByteMoves : Prop :=
  ∀ (s : State) (b : Byte) (rest : List Byte),
    s.rxPhase = .payload → s.rxFifo = b :: rest → s.rxCount < s.cfg.rxPayloadMax →
    (s.rxCount + 1 ≠ s.rxTarget.toNat → runMove .uart s = .next { s with
      rxFifo := rest, mem := { s.mem with rxp := s.mem.rxp.write s.rxCount b }, rxCount := s.rxCount + 1 }) ∧
    (s.rxCount + 1 = s.rxTarget.toNat → runMove .uart s = .next { s with
      rxFifo := rest, mem := { s.mem with rxp := s.mem.rxp.write s.rxCount b }, rxCount := s.rxCount + 1
      rxPhase := .payloadDone, pendRx := true })

/-- R164, R165: the receive handler on a completed header (dropped on a wrong label, complete on length 0,
`F_RX_LENGTH` above the buffer's size, else a payload transfer is armed) and on a completed payload. -/
def Obligations.ReceiveHandlerByPhase : Prop :=
  (∀ (s : State) (h : Header), s.pendRx = true → s.rxPhase = .headerDone → s.readRxHeader = .value h.bytes →
    runMove (.isr .rx) s =
      if h.b0 ≠ s.cfg.label then
        .next { s with pendRx := false, rxPhase := .header, rxCount := 0, rxStalled := false }
      else if h.lengthField = 0 then
        .next { s with pendRx := false, rxPhase := .off, rxFlag := true, rxStalled := false }
      else if s.cfg.rxPayloadMax < h.lengthField.toNat then .next ({ s with pendRx := false }.raise .rxLength)
      else .next { s with
        pendRx := false, rxPhase := .payload, rxCount := 0, rxTarget := h.lengthField, rxStalled := false }) ∧
  (∀ s : State, s.pendRx = true → s.rxPhase = .payloadDone →
    runMove (.isr .rx) s = .next { s with pendRx := false, rxPhase := .off, rxFlag := true })

/-- R167: while a frame waits for the main loop no receive byte is taken from the queue. That the move then leaves
the whole state alone is the model's choice (log 3). -/
def Obligations.WaitingFrameHoldsReception : Prop :=
  ∀ s : State, s.Inv → (s.rxFlag = true ∨ s.mlPhase ≠ .idle) → s.rxPhase = .off ∧ runMove .uart s = .next s

/-- R168, R45: a tick sets its pending bit, and a second before the handler merges into it. -/
def Obligations.TicksMerge : Prop :=
  ∀ s : State, runMove .tick s = .next { s with pendTick := true } ∧
    (s.pendTick = true → runMove .tick s = .next s)

/-- R169, R170: the tick handler marks a partial header, resets reception when it was already marked, and clears
the mark otherwise. -/
def Obligations.TickHandlerDetectsStalls : Prop :=
  ∀ s : State, s.pendTick = true →
    runMove (.isr .tick) s =
      if s.rxPhase = .header ∧ 0 < s.rxCount then
        if s.rxStalled = true then
          .next { s with pendTick := false, rxCount := 0, rxPhase := .header, rxStalled := false }
        else .next { s with pendTick := false, rxStalled := true }
      else .next { s with pendTick := false, rxStalled := false }

/-- R178 (a): a header still partial at two tick-handler runs is reset by the second, whatever else was done
between, when the first run was not itself a reset and no receive handler, tick handler or main-loop step came
between (they are what completes a header, resets or re-arms). -/
def Obligations.StalledHeaderIsReset : Prop :=
  ∀ (s t u : State) (moves : List Event),
    s.pendTick = true → s.rxPhase = .header → 0 < s.rxCount → s.rxStalled = false →
    runMove (.isr .tick) s = .next t →
    (∀ e ∈ moves, e ≠ .isr .rx ∧ e ≠ .isr .tick ∧ e ≠ .ml) → runMoves moves t = .next u →
    u.pendTick = true → u.rxPhase = .header → 0 < u.rxCount →
      ∃ v, runMove (.isr .tick) u = .next v ∧ v.rxPhase = .header ∧ v.rxCount = 0 ∧ v.rxStalled = false ∧
        v.rxFifo = u.rxFifo

/-! ## Transmit side -/

/-- R173, R175: an enabled transmit move sends `txbyte(tx_pos)`, and after the last byte sets the pending bit; an
unwritten cell is `F_UNWRITTEN` and nothing else; the transmit handler ends the transmit. The last clause, that the
move leaves the state alone with no transmit in flight or every byte sent, is the model's choice (log 3): R173 says
only that it is not enabled there. -/
def Obligations.TransmitSendsEachByteAndEnds : Prop :=
  (∀ s : State, s.txFlag = true → s.txPos < s.txTotal →
    (∀ b, txByteAt s s.txPos = .byte b →
      runMove .txb s = .next { s with
        hostOut := s.hostOut ++ [b], txPos := s.txPos + 1
        pendTx := s.pendTx || decide (s.txPos + 1 = s.txTotal) }) ∧
    (txByteAt s s.txPos = .unwritten → runMove .txb s = .next (s.raise .unwritten))) ∧
  (∀ s : State, s.pendTx = true → runMove (.isr .tx) s = .next { s with pendTx := false, txFlag := false }) ∧
  (∀ s : State, s.txFlag = false ∨ s.txTotal ≤ s.txPos → runMove .txb s = .next s)

/-- R174, R243, R72: the first 8 bytes of every transmit, control or bulk, are those of `TXH`; a bulk transmit's
bytes after them are `RING[0]` and then `RING[1]` in cell order, each sample low byte first; a byte whose cell was
never written reads as unwritten. -/
def Obligations.BulkPayloadOrder : Prop :=
  (∀ (s : State) (k : Nat), k < 8 →
    (∀ b, s.mem.txh.read k = some b → txByteAt s k = .byte b) ∧
    (s.mem.txh.read k = none → txByteAt s k = .unwritten)) ∧
  (∀ (s : State) (i : Nat), s.txBulk = true → i < s.cfg.ringSize →
    (∀ v, s.mem.ring0.read i = some v →
      txByteAt s (8 + 2 * i) = .byte (v.extractLsb' 0 8) ∧ txByteAt s (8 + 2 * i + 1) = .byte (v.extractLsb' 8 8)) ∧
    (∀ v, s.mem.ring1.read i = some v →
      txByteAt s (8 + 2 * s.cfg.ringSize + 2 * i) = .byte (v.extractLsb' 0 8) ∧
        txByteAt s (8 + 2 * s.cfg.ringSize + 2 * i + 1) = .byte (v.extractLsb' 8 8)) ∧
    (s.mem.ring0.read i = none →
      txByteAt s (8 + 2 * i) = .unwritten ∧ txByteAt s (8 + 2 * i + 1) = .unwritten) ∧
    (s.mem.ring1.read i = none →
      txByteAt s (8 + 2 * s.cfg.ringSize + 2 * i) = .unwritten ∧
        txByteAt s (8 + 2 * s.cfg.ringSize + 2 * i + 1) = .unwritten))

/-- R75, R78: four consecutive payload bytes of a channel, read as a 32-bit little-endian word, are the packed
word of two samples, the earlier in its low half; channel 1's bytes follow channel 0's `2 * R`. -/
def Obligations.PackedWordsOnTheWire : Prop :=
  ∀ (s : State) (c : Chan) (w : Nat) (x : U32), s.txBulk = true → 2 * w + 1 < s.cfg.ringSize →
    s.ringWord c w = some x →
    let k := 8 + bulkBase s.cfg c + 4 * w
    ∃ b0 b1 b2 b3 : Byte,
      txByteAt s k = .byte b0 ∧ txByteAt s (k + 1) = .byte b1 ∧
      txByteAt s (k + 2) = .byte b2 ∧ txByteAt s (k + 3) = .byte b3 ∧
      x.toNat = b0.toNat + 256 * b1.toNat + 65536 * b2.toNat + 16777216 * b3.toNat

/-! ## Main loop and handlers -/

/-- R209, R210: with no reply waiting, M2 only goes on to M3; M3 re-arms reception and returns to IDLE. The first
two clauses, that a main-loop move leaves the state alone while a pending bit is set, and in IDLE with no frame
received, are the model's choice (log 3): R295 and R200 say only that it is not enabled there. -/
def Obligations.MainLoopWaitsAndRearms : Prop :=
  (∀ s : State, s.anyPending = true → runMove .ml s = .next s) ∧
  (∀ s : State, s.mlPhase = .idle → s.rxFlag = false → runMove .ml s = .next s) ∧
  (∀ s : State, s.mlPhase = .reply → s.anyPending = false → s.mlReply = none →
    runMove .ml s = .next { s with mlPhase := .rearm }) ∧
  (∀ s : State, s.mlPhase = .rearm → s.anyPending = false →
    runMove .ml s = .next { s with rxPhase := .header, rxCount := 0, rxStalled := false, mlPhase := .idle })

/-- R296, R297: a handler run clears its own pending bit and never writes the main loop's position or its
waiting reply. The last clause, that the move of a source with no pending bit leaves the state alone, is the model's
choice (log 3): R296 says only that the handler is not entered there. -/
def Obligations.HandlersKeepTheMainLoopPosition : Prop :=
  (∀ (s t : State) (x : IntSource), s.pending x = true → runMove (.isr x) s = .next t →
    t.pending x = false ∧ t.mlPhase = s.mlPhase ∧ t.mlReply = s.mlReply) ∧
  (∀ (s : State) (x : IntSource), s.pending x = false → runMove (.isr x) s = .next s)

/-! ## Acquisition (43_acquisition.md) -/

/-- R236, R237: a sample tick with both channels armed stores each channel's value in its cell and leaves every
other cell; a block's last sample disarms the channel and sets its pending bit. -/
def Obligations.SampleTickStoresBothChannels : Prop :=
  ∀ (s : State) (v0 v1 : U16), s.timerRunning = true → s.ch0.dmaArmed = true → s.ch1.dmaArmed = true →
    ringIndex s.cfg s.ch0.blockWrite.toNat s.ch0.dmaPos < s.cfg.ringSize →
    ringIndex s.cfg s.ch1.blockWrite.toNat s.ch1.dmaPos < s.cfg.ringSize →
    ∃ t, runMove (.sample v0 v1) s = .next t ∧
      (∀ a, t.mem.ring0.read a =
        if a = ringIndex s.cfg s.ch0.blockWrite.toNat s.ch0.dmaPos then some v0 else s.mem.ring0.read a) ∧
      (∀ a, t.mem.ring1.read a =
        if a = ringIndex s.cfg s.ch1.blockWrite.toNat s.ch1.dmaPos then some v1 else s.mem.ring1.read a) ∧
      t.ch0 = (if s.ch0.dmaPos + 1 = s.cfg.nSamples then
        { s.ch0 with dmaArmed := false, dmaPos := 0, pendAdc := true }
        else { s.ch0 with dmaPos := s.ch0.dmaPos + 1 }) ∧
      t.ch1 = (if s.ch1.dmaPos + 1 = s.cfg.nSamples then
        { s.ch1 with dmaArmed := false, dmaPos := 0, pendAdc := true }
        else { s.ch1 with dmaPos := s.ch1.dmaPos + 1 }) ∧
      t.faults = s.faults

/-- R236, R237, R238: a sample tick gives channel 0 its conversion and then channel 1, unless channel 0's faulted.
That the move leaves the state alone while the timer is stopped is the model's choice (log 3): R236 says only that
it is not enabled there. An armed channel stores its sample, and the block's last one disarms
it and sets its pending bit; an unarmed one that still has blocks to capture is `F_ADC_OVERRUN`; any other discards
it. -/
def Obligations.SampleReachesItsChannel : Prop :=
  (∀ (s : State) (v0 v1 : U16), runMove (.sample v0 v1) s =
    if s.timerRunning = true then ((sampleIn .c0 v0 s).andThen (sampleIn .c1 v1)).outcome else .next s) ∧
  (∀ (s : State) (c : Chan) (v : U16), (s.chan c).dmaArmed = true →
    (s.chan c).blockWrite.toNat * s.cfg.nSamples + (s.chan c).dmaPos < s.cfg.ringSize →
      let cell := (s.chan c).blockWrite.toNat * s.cfg.nSamples + (s.chan c).dmaPos
      let stored := s.mem.setRing c ((s.mem.ring c).write cell v)
      sampleIn c v s = .cont
        (State.setChan { s with mem := stored } c
          (if (s.chan c).dmaPos + 1 = s.cfg.nSamples then { s.chan c with dmaArmed := false, dmaPos := 0, pendAdc := true }
            else { s.chan c with dmaPos := (s.chan c).dmaPos + 1 }))) ∧
  (∀ (s : State) (c : Chan) (v : U16), (s.chan c).dmaArmed = false →
    sampleIn c v s =
      if s.acqBusy = true ∧ (s.chan c).isDone = false ∧ (s.chan c).blockCount ≠ 0 then .ends (s.raise (.adcOverrun c))
      else .cont s)

/-- R239: a channel handler with blocks left re-arms into the next slot and counts down. -/
def Obligations.ChannelHandlerRearms : Prop :=
  ∀ (s : State) (c : Chan), (s.chan c).pendAdc = true → (s.chan c).blockCount ≠ 0 →
    runMove (.isr (.adc c)) s = .next (s.setChan c { s.chan c with
      pendAdc := false
      blockWrite := ((s.chan c).blockWrite + 1) &&& s.cfg.mask
      dmaPos := 0, dmaArmed := true, blockCount := (s.chan c).blockCount - 1 })

/-- R240, R241: a channel handler with no blocks left marks the channel done; if the other channel is done, the
timer stops, the acquisition ends and the bulk reply starts, or is `F_TX_OVERLAP`. -/
def Obligations.ChannelHandlerCompletes : Prop :=
  ∀ (s : State) (c : Chan), (s.chan c).pendAdc = true → (s.chan c).blockCount = 0 →
    runMove (.isr (.adc c)) s =
      if (s.chan c.other).isDone = false then
        .next (s.setChan c { s.chan c with pendAdc := false, isDone := true })
      else if s.txFlag = true then
        .next (({ s with timerRunning := false, acqBusy := false }.setChan c
          { s.chan c with pendAdc := false, isDone := true }).raise .txOverlap)
      else
        .next ({ s with
          timerRunning := false, acqBusy := false
          mem := { s.mem with txh := s.mem.txh.writeList 0 (bulkHeader s.cfg s.acqIntra s.acqInterval).bytes }
          txBulk := true, txPos := 0, txTotal := 8 + 4 * s.cfg.ringSize, txFlag := true }.setChan c
          { s.chan c with pendAdc := false, isDone := true })

/-- R248: with both last-block handlers pending, either order of the two gives the same state, and exactly one
transmit is started when none is in flight. -/
def Obligations.RendezvousInEitherOrder : Prop :=
  ∀ s : State, (∀ c, (s.chan c).pendAdc = true ∧ (s.chan c).blockCount = 0 ∧ (s.chan c).isDone = false) →
    runMoves [.isr (.adc .c0), .isr (.adc .c1)] s = runMoves [.isr (.adc .c1), .isr (.adc .c0)] s ∧
      (s.txFlag = false →
        ∃ t, runMoves [.isr (.adc .c0), .isr (.adc .c1)] s = .next t ∧ t.txFlag = true ∧ t.txBulk = true ∧
          t.txPos = 0 ∧ t.txTotal = 8 + 4 * s.cfg.ringSize ∧ t.acqBusy = false ∧ t.timerRunning = false ∧
          (∀ c, (t.chan c).isDone = true ∧ (t.chan c).pendAdc = false) ∧ t.faults = s.faults ∧
          ∀ a, a < 8 → t.mem.txh.read a = (bulkHeader s.cfg s.acqIntra s.acqInterval).bytes[a]?)

/-- R253: masking a slot is taking it modulo `N_BLOCKS`, so a slot `R232` or `R239` assigns is in range. -/
def Obligations.MaskIsModulo : Prop :=
  ∀ (c : Config) (x : U32), c.admissible →
    (x &&& c.mask).toNat = x.toNat % c.nBlocks ∧ (x &&& c.mask).toNat < c.nBlocks

/-- R233: the default offset function; and for every admitted window length the offsets are in range and the window
lies inside the ring, whichever offset function the configuration has (R14). R233 derives the range of the default
from R8; that a replacement is a table whose rows admissibility checks is the model's choice (log 7). -/
def Obligations.OffsetsStayInRange : Prop :=
  (∀ (c : Config) (l : Nat), c.offsetFn = .formula →
    offsetOf c l =
      ((c.pre + (c.window - l) / 2) / c.nSamples, (c.pre + (c.window - l) / 2) % c.nSamples)) ∧
  (∀ (c : Config) (l : Nat), c.admissible → c.admitsLength l →
    (offsetOf c l).1 ≤ c.nBlocks - 1 ∧ (offsetOf c l).2 < c.nSamples ∧ (offsetOf c l).2 + l ≤ c.ringSize)

/-- R247: with the default offset function the window's centre is the same for every admitted length, and the
window starts where R246 places its first chronological index. -/
def Obligations.WindowCentreIsFixed : Prop :=
  ∀ (c : Config) (l : Nat), c.admissible → c.offsetFn = .formula → c.admitsLength l →
    ((offsetOf c l).1 + 1) * c.nSamples + (offsetOf c l).2 + l / 2 = c.nSamples + c.pre + c.window / 2

/-- R244, R246: from any state of the invariant in which a run command may start, an acquisition whose handlers
run after every block ends by itself, and the ring cell of each chronological index `u` then holds the sample of
tick `(off + 1) * N_SAMPLES + u`, on both channels. -/
def Obligations.CaptureIsChronological : Prop :=
  ∀ (s : State) (interval l : U16) (f0 f1 : Nat → U16),
    s.Inv → s.acqBusy = false → s.txFlag = false → s.cfg.admitsLength l.toNat →
    ∃ t, runMoves (captureMoves s.cfg (offsetOf s.cfg l.toNat).1 f0 f1) (acquireStart interval l s) = .next t ∧
      t.acqBusy = false ∧ t.timerRunning = false ∧ t.txFlag = true ∧ t.txBulk = true ∧ t.faults = s.faults ∧
      ∀ u, u < s.cfg.ringSize →
        t.mem.ring0.read (chronoCell s.cfg u) =
          some (f0 (((offsetOf s.cfg l.toNat).1 + 1) * s.cfg.nSamples + u)) ∧
        t.mem.ring1.read (chronoCell s.cfg u) =
          some (f1 (((offsetOf s.cfg l.toNat).1 + 1) * s.cfg.nSamples + u))

/-! ## Reset (R51, R321, R322) -/

/-- R51: the value of every field after reset, under any configuration. -/
def Obligations.ResetTable : Prop :=
  ∀ c : Config, let s := State.resetWith c
    s.cfg = c ∧ s.rxFlag = false ∧ s.txFlag = false ∧ s.rxStalled = false ∧ s.rxPhase = .header ∧ s.rxCount = 0 ∧
    s.rxTarget = 0 ∧ s.rxFifo = [] ∧ s.txPos = 0 ∧ s.txTotal = 0 ∧ s.txBulk = false ∧
    (∀ d, s.chan d = ⟨false, 0, 0, false, 0, false⟩) ∧ s.acqBusy = false ∧ s.acqInterval = 0 ∧ s.acqLength = 0 ∧
    s.acqOffsetBlocks = 0 ∧ s.acqIntra = 0 ∧ s.timerRunning = false ∧ s.timerInterval = 0 ∧
    (∀ x, s.pending x = false) ∧ s.mlPhase = .idle ∧ s.mlReply = none ∧ s.hostOut = [] ∧ s.faults = [] ∧
    s.refused = none ∧ (∀ d a, (s.mem.ring d).read a = none) ∧ (∀ a, s.mem.rxh.read a = none) ∧
    (∀ a, s.mem.rxp.read a = none) ∧ (∀ a, s.mem.txh.read a = none) ∧ s.final = true

/-- The invariants hold after reset, under every admissible configuration, that of `State.reset` among them. -/
def Obligations.InvariantsAtReset : Prop :=
  (∀ c : Config, c.admissible → (State.resetWith c).Inv ∧ (State.resetWith c).Lockstep) ∧
    State.reset.Inv ∧ State.reset.Lockstep

/-! ## Invariants that every step keeps -/

/-- R70, R73: every memory stays in its canonical form and inside its size, from any state at all. -/
def Obligations.StepKeepsMemoryForm : Prop :=
  ∀ s t : State, s.mem.wf → s.mem.inBounds s.cfg → step s = .next t → t.mem.wf ∧ t.mem.inBounds t.cfg

/-- R55, R90, R91, R244, R245: the machine's invariant is kept by every step. -/
def Obligations.StepKeepsInvariant : Prop := ∀ s t : State, s.Inv → step s = .next t → t.Inv

/-- R280: nothing halts the device: in the invariant a step always answers a next state. -/
def Obligations.NoStepStops : Prop := ∀ s : State, s.Inv → ∃ t, step s = .next t

/-- R249: the lockstep of the two channels in an unmarked run is kept by every step. -/
def Obligations.StepKeepsLockstep : Prop :=
  ∀ s t : State, s.Inv → s.Lockstep → step s = .next t → t.Lockstep

/-- R55: the listed properties hold in every unmarked state of the two invariants. -/
def Obligations.ListedPropertiesHold : Prop :=
  ∀ s : State, s.Inv → s.Lockstep → s.faults = [] →
    (∀ c, (s.chan c).blockWrite.toNat < s.cfg.nBlocks) ∧
    (s.rxFlag = true → s.rxPhase = .off) ∧
    (∀ c, (s.chan c).dmaArmed = true → s.acqBusy = true ∧ (s.chan c).isDone = false) ∧
    (s.ch0.isDone = true → s.ch1.isDone = true → s.acqBusy = false ∧ s.timerRunning = false) ∧
    (s.acqBusy = true → s.ch0.isDone = false → s.ch1.isDone = false → s.Aligned)

/-- R244, R245: when both channels are done, the last block is in slot 0 of each and every cell of both rings
has been written. -/
def Obligations.FinishedCaptureFillsTheRings : Prop :=
  ∀ s : State, s.Inv → s.ch0.isDone = true → s.ch1.isDone = true →
    s.ch0.blockWrite = 0 ∧ s.ch1.blockWrite = 0 ∧ s.ringsWritten

/-! ## Whole-machine rules -/

/-- R287, R290: no step removes a fault or changes a refusal once set; and no step writes the configuration. -/
def Obligations.MarksAreSticky : Prop :=
  ∀ s t : State, step s = .next t →
    t.cfg = s.cfg ∧ (∀ f, f ∈ s.faults → f ∈ t.faults) ∧ (∀ r, s.refused = some r → t.refused = some r)

/-- R47, R70: only the transmit move writes `host_out`, by one byte at its end, and only a sample tick changes a
ring cell. -/
def Obligations.OnlyTheirMovesWriteOutputAndRings : Prop :=
  ∀ (e : Event) (s t : State), runMove e s = .next t →
    (t.hostOut = s.hostOut ∨ e = .txb ∧ ∃ b, t.hostOut = s.hostOut ++ [b]) ∧
      ((∀ v0 v1, e ≠ .sample v0 v1) → ∀ c a, (t.mem.ring c).read a = (s.mem.ring c).read a)
end

