-- ==== Sys2Proof/Laws/Codec.lean ====
section
/-! SUPPORT. Laws of the codec (40_codec.md): byte order, header fields, the label check, the selection. -/

namespace Sys2Proof

@[simp] theorem le16_bytes (v : U16) : le16 (loByte v) (hiByte v) = v := by
  simp only [le16, loByte, hiByte]
  ext i hi
  simp only [BitVec.getElem_append, BitVec.getElem_extractLsb', Nat.zero_add]
  split
  · simp [hi]
  · rw [show 8 + (i - 8) = i by omega]; simp [hi]

@[simp] theorem loByte_le16 (a b : Byte) : loByte (le16 a b) = a := by
  simp only [le16, loByte]
  ext i hi
  rw [BitVec.getElem_extractLsb', BitVec.getLsbD_eq_getElem (by omega), BitVec.getElem_append, dif_pos (by omega)]
  congr 1; omega

@[simp] theorem hiByte_le16 (a b : Byte) : hiByte (le16 a b) = b := by
  simp only [le16, hiByte]
  ext i hi
  rw [BitVec.getElem_extractLsb', BitVec.getLsbD_eq_getElem (by omega), BitVec.getElem_append, dif_neg (by omega)]
  congr 1; omega

/-- `LE16(b0, b1) = b0 + 256 * b1` (R18). -/
theorem le16_toNat (a b : Byte) : (le16 a b).toNat = a.toNat + 256 * b.toNat := by
  simp only [le16, BitVec.toNat_append]
  have ha := a.isLt
  rw [Nat.shiftLeft_eq, Nat.mul_comm, ← Nat.two_pow_add_eq_or_of_lt ha]
  omega

theorem tagEq_iff (a b : Tag) : tagEq a b = true ↔ a = b := by
  cases a; cases b; simp [tagEq, and_assoc]

@[simp] theorem mkHeader_b0 (l c : Byte) (n : U16) (t : Tag) : (mkHeader l c n t).b0 = l := rfl

@[simp] theorem mkHeader_b1 (l c : Byte) (n : U16) (t : Tag) : (mkHeader l c n t).b1 = c := rfl

@[simp] theorem mkHeader_lengthField (l c : Byte) (n : U16) (t : Tag) : (mkHeader l c n t).lengthField = n := by
  simp [mkHeader, Header.lengthField]

@[simp] theorem mkHeader_argTag (l c : Byte) (n : U16) (t : Tag) : (mkHeader l c n t).argTag = t := rfl

/-- A header is its four fields (R101). -/
@[simp] theorem mkHeader_fields (h : Header) : mkHeader h.b0 h.b1 h.lengthField h.argTag = h := by
  simp [mkHeader, Header.lengthField, Header.argTag]

theorem mkHeader_inj {l c l' c' : Byte} {n n' : U16} {t t' : Tag} :
    mkHeader l c n t = mkHeader l' c' n' t' ↔ l = l' ∧ c = c' ∧ n = n' ∧ t = t' := by
  constructor
  · intro h
    exact ⟨by simpa using congrArg Header.b0 h, by simpa using congrArg Header.b1 h,
      by simpa using congrArg Header.lengthField h, by simpa using congrArg Header.argTag h⟩
  · rintro ⟨rfl, rfl, rfl, rfl⟩; rfl

@[simp] theorem takeHeader_bytes (h : Header) (rest : List Byte) : takeHeader (h.bytes ++ rest) = some (h, rest) := rfl

/-- The first 8 bytes are a header exactly when the bytes are that header's and the rest. -/
theorem takeHeader_eq_some {bs rest : List Byte} {h : Header} :
    takeHeader bs = some (h, rest) ↔ bs = h.bytes ++ rest := by
  constructor
  · intro e
    unfold takeHeader at e
    split at e
    · simp only [Option.some.injEq, Prod.mk.injEq] at e
      obtain ⟨rfl, rfl⟩ := e
      rfl
    · simp at e
  · rintro rfl; simp

theorem Header.bytes_inj {h k : Header} : h.bytes = k.bytes ↔ h = k := by
  cases h; cases k; simp [Header.bytes]

@[simp] theorem Header.bytes_length (h : Header) : h.bytes.length = 8 := rfl

theorem decodePacket_some {c : Config} {h : Header} (hl : h.b0 = c.label) :
    decodePacket c h = some { label := h.b0, code := h.b1, length := h.lengthField, arg := h.argTag } := by
  simp [decodePacket, hl]

theorem decodePacket_none {c : Config} {h : Header} (hl : h.b0 ≠ c.label) : decodePacket c h = none := by
  simp [decodePacket, hl]

/-- The packet of a frame built by R143 or R144. -/
@[simp] theorem decodePacket_mkHeader (c : Config) (code : Byte) (n : U16) (t : Tag) :
    decodePacket c (mkHeader c.label code n t) = some ⟨c.label, code, n, t⟩ := by
  simp [decodePacket]

/-- A command header with the right label decodes to the instruction R106 selects for its packet. -/
theorem decodeCommand_header {c : Config} {h : Header} (hl : h.b0 = c.label) (pl rest : List Byte)
    (hn : pl.length = h.lengthField.toNat) :
    decodeCommand c (h.bytes ++ (pl ++ rest)) = .ok (classify c ⟨h.b0, h.b1, h.lengthField, h.argTag⟩ pl, rest) := by
  simp [decodeCommand, decodePacket_some hl, ← hn]

/-- A header with a wrong label is a FRAME_ERROR and takes its 8 bytes only (R142). -/
theorem decodeCommand_frameError {c : Config} {h : Header} (hl : h.b0 ≠ c.label) (rest : List Byte) :
    decodeCommand c (h.bytes ++ rest) = .ok (frameErrorOf h, rest) := by
  simp [decodeCommand, decodePacket_none hl]

end Sys2Proof

namespace Sys2Proof.Machine

@[simp] theorem headerOfBytes_bytes (h : Header) : headerOfBytes h.bytes = some h := rfl

theorem headerOfBytes_eq_some {bs : List Byte} {h : Header} : headerOfBytes bs = some h ↔ bs = h.bytes := by
  constructor
  · intro e
    unfold headerOfBytes at e
    split at e
    · simp only [Option.some.injEq] at e; subst e; rfl
    · simp at e
  · rintro rfl; rfl

theorem exists_header_of_length {bs : List Byte} (h : bs.length = 8) : ∃ k : Header, bs = k.bytes := by
  rcases bs with _ | ⟨b0, _ | ⟨b1, _ | ⟨b2, _ | ⟨b3, _ | ⟨b4, _ | ⟨b5, _ | ⟨b6, _ | ⟨b7, _ | ⟨b8, r⟩⟩⟩⟩⟩⟩⟩⟩⟩
  all_goals first | (simp at h; done) | exact ⟨⟨b0, b1, b2, b3, b4, b5, b6, b7⟩, rfl⟩

end Sys2Proof.Machine
end

