-- ==== Sys2Proof/Laws/Mem.lean ====
section
/-! SUPPORT. Laws of the memories (R70 to R73): read after write, the canonical form, sizes, and which cells
have been written. -/

namespace Sys2Proof.Machine

section cells

variable {w : Nat}

@[simp] theorem Mem.read_nil (a : Nat) : Mem.read ([] : Mem w) a = none := rfl

theorem Mem.read_cons (k : Nat) (x : BitVec w) (m : Mem w) (a : Nat) :
    Mem.read ((k, x) :: m) a = if k = a then some x else Mem.read m a := rfl

/-- A read after a write: the value written at its place, the old value at every other (R73, R84). -/
theorem Mem.read_write (m : Mem w) (a b : Nat) (v : BitVec w) :
    (m.write a v).read b = if b = a then some v else m.read b := by
  induction m with
  | nil => simp [Mem.write, Mem.read, eq_comm]
  | cons e m ih =>
    obtain ⟨k, x⟩ := e
    simp only [Mem.write]
    split
    · simp [Mem.read_cons, eq_comm]
    · split
      · subst_vars; simp only [Mem.read_cons]; split <;> simp_all [eq_comm]
      · simp only [Mem.read_cons, ih]; split <;> simp_all [eq_comm]

@[simp] theorem Mem.read_write_same (m : Mem w) (a : Nat) (v : BitVec w) : (m.write a v).read a = some v := by
  simp [Mem.read_write]

theorem Mem.read_write_other (m : Mem w) {a b : Nat} (v : BitVec w) (h : b ≠ a) :
    (m.write a v).read b = m.read b := by simp [Mem.read_write, h]

/-- The entries after a write: the one written or an old one. -/
theorem Mem.mem_write {m : Mem w} {a : Nat} {v : BitVec w} {e : Nat × BitVec w} (h : e ∈ m.write a v) :
    e = (a, v) ∨ e ∈ m := by
  induction m with
  | nil => simpa [Mem.write] using h
  | cons f m ih =>
    obtain ⟨k, x⟩ := f
    simp only [Mem.write] at h
    split at h
    · simpa using h
    · split at h
      · simp only [List.mem_cons] at h ⊢; tauto
      · simp only [List.mem_cons] at h ⊢
        rcases h with h | h
        · exact .inr (.inl h)
        · exact (ih h).imp id .inr

theorem Mem.below_write {m : Mem w} {size a : Nat} (v : BitVec w) (hm : m.below size) (ha : a < size) :
    (m.write a v).below size := by
  intro e he
  rcases Mem.mem_write he with rfl | h
  · exact ha
  · exact hm e h

theorem Mem.wf_cons {k : Nat} {x : BitVec w} {m : Mem w} :
    Mem.wf ((k, x) :: m) ↔ (∀ e ∈ m, k < e.1) ∧ m.wf := by
  simp [Mem.wf, List.pairwise_cons]

/-- A write keeps the canonical form. -/
theorem Mem.wf_write {m : Mem w} (a : Nat) (v : BitVec w) (h : m.wf) : (m.write a v).wf := by
  induction m with
  | nil => simp [Mem.write, Mem.wf]
  | cons e m ih =>
    obtain ⟨k, x⟩ := e
    rw [Mem.wf_cons] at h
    simp only [Mem.write]
    split
    · rename_i hlt
      refine Mem.wf_cons.2 ⟨?_, Mem.wf_cons.2 h⟩
      intro e he
      rcases List.mem_cons.1 he with rfl | he
      · exact hlt
      · exact hlt.trans (h.1 e he)
    · split
      · subst_vars; exact Mem.wf_cons.2 h
      · refine Mem.wf_cons.2 ⟨?_, ih h.2⟩
        intro e he
        rcases Mem.mem_write he with rfl | he
        · simp only; omega
        · exact h.1 e he

theorem Mem.read_writeList (m : Mem w) (a : Nat) (vs : List (BitVec w)) (b : Nat) :
    (m.writeList a vs).read b = if a ≤ b then (vs[b - a]?).or (m.read b) else m.read b := by
  induction vs generalizing m a with
  | nil => simp [Mem.writeList]
  | cons v vs ih =>
    simp only [Mem.writeList, ih, Mem.read_write]
    by_cases h1 : a + 1 ≤ b
    · have h2 : a ≤ b := by omega
      have h3 : b ≠ a := by omega
      have h4 : b - a = (b - (a + 1)) + 1 := by omega
      simp only [h1, h2, h3, if_true, if_false, h4, List.getElem?_cons_succ]
    · by_cases h2 : b = a
      · subst h2; simp
      · have h3 : ¬ a ≤ b := by omega
        simp [h1, h2, h3]

theorem Mem.wf_writeList {m : Mem w} (a : Nat) (vs : List (BitVec w)) (h : m.wf) : (m.writeList a vs).wf := by
  induction vs generalizing m a with
  | nil => exact h
  | cons v vs ih => exact ih _ (Mem.wf_write a v h)

theorem Mem.below_writeList {m : Mem w} {size a : Nat} (vs : List (BitVec w)) (h : m.below size)
    (ha : a + vs.length ≤ size) : (m.writeList a vs).below size := by
  induction vs generalizing m a with
  | nil => exact h
  | cons v vs ih =>
    simp only [List.length_cons] at ha
    exact ih (Mem.below_write v h (by omega)) (by omega)

/-! ## Written cells -/

theorem Mem.written_write {m : Mem w} {a b : Nat} (v : BitVec w) (h : m.written b) : (m.write a v).written b := by
  unfold Mem.written at *
  rw [Mem.read_write]
  split
  · exact ⟨v, rfl⟩
  · exact h

theorem Mem.written_write_same (m : Mem w) (a : Nat) (v : BitVec w) : (m.write a v).written a :=
  ⟨v, by simp⟩

theorem Mem.writtenBelow_write {m : Mem w} {n : Nat} (a : Nat) (v : BitVec w) (h : m.writtenBelow n) :
    (m.write a v).writtenBelow n := fun b hb => Mem.written_write v (h b hb)

theorem Mem.writtenBelow_succ {m : Mem w} {n : Nat} (v : BitVec w) (h : m.writtenBelow n) :
    (m.write n v).writtenBelow (n + 1) := by
  intro b hb
  by_cases hbn : b = n
  · subst hbn; exact Mem.written_write_same m b v
  · exact Mem.written_write v (h b (by omega))

theorem Mem.writtenBelow_mono {m : Mem w} {n k : Nat} (h : m.writtenBelow n) (hk : k ≤ n) : m.writtenBelow k :=
  fun b hb => h b (by omega)

@[simp] theorem Mem.writtenBelow_zero (m : Mem w) : m.writtenBelow 0 := fun _ h => absurd h (by omega)

/-- `n` consecutive reads give values exactly when the cells exist and have been written, and then the values
are those of the cells. -/
theorem Mem.cells_value_iff (m : Mem w) (size a n : Nat) (vs : List (BitVec w)) (hs : a + n ≤ size) :
    m.cells size a n = .value vs ↔ vs.length = n ∧ ∀ i, i < n → m.read (a + i) = vs[i]? := by
  induction n generalizing a vs with
  | zero => simp [Mem.cells, eq_comm (a := ([] : List (BitVec w))), List.length_eq_zero_iff]
  | succ n ih =>
    have ha : a < size := by omega
    simp only [Mem.cells, Mem.cell, if_pos ha]
    cases hr : m.read a with
    | none =>
      simp only [reduceCtorEq, false_iff, not_and]
      intro hl h
      have := h 0 (by omega)
      rw [Nat.add_zero, hr] at this
      cases vs with
      | nil => simp at hl
      | cons => simp at this
    | some v =>
      simp only
      constructor
      · intro h
        cases ht : m.cells size (a + 1) n with
        | value us =>
          rw [ht] at h
          simp only [Read.value.injEq] at h
          subst h
          obtain ⟨h1, h2⟩ := (ih (a + 1) us (by omega)).1 ht
          refine ⟨by simp [h1], fun i hi => ?_⟩
          cases i with
          | zero => simpa using hr
          | succ i =>
            have := h2 i (by omega)
            rw [List.getElem?_cons_succ, ← this]
            congr 1; omega
        | unwritten => rw [ht] at h; simp at h
        | absent => rw [ht] at h; simp at h
      · rintro ⟨hl, h⟩
        cases vs with
        | nil => simp at hl
        | cons u us =>
          have h0 := h 0 (by omega)
          simp only [Nat.add_zero, hr, List.getElem?_cons_zero, Option.some.injEq] at h0
          subst h0
          have : m.cells size (a + 1) n = .value us := by
            refine (ih (a + 1) us (by omega)).2 ⟨by simpa using hl, fun i hi => ?_⟩
            have := h (i + 1) (by omega)
            rw [List.getElem?_cons_succ] at this
            rw [← this]; congr 1; omega
          rw [this]

/-- Written cells can be read. -/
theorem Mem.cells_of_written {m : Mem w} {size n : Nat} (h : m.writtenBelow n) (hs : n ≤ size) :
    ∃ vs, m.cells size 0 n = .value vs ∧ vs.length = n := by
  have key : ∀ k a, a + k = n → ∃ vs, m.cells size a k = .value vs ∧ vs.length = k := by
    intro k
    induction k with
    | zero => intro a _; exact ⟨[], rfl, rfl⟩
    | succ k ih =>
      intro a hak
      obtain ⟨v, hv⟩ := h a (by omega)
      obtain ⟨vs, hvs, hl⟩ := ih (a + 1) (by omega)
      exact ⟨v :: vs, by simp [Mem.cells, Mem.cell, hv, hvs, show a < size by omega], by simp [hl]⟩
  exact key n 0 (by omega)

end cells

/-! ## The five memories -/

@[simp] theorem Memory.setRing_ring_same (m : Memory) (c : Chan) (r : Mem 16) : (m.setRing c r).ring c = r := by
  cases c <;> rfl

theorem Memory.setRing_ring (m : Memory) (c d : Chan) (r : Mem 16) :
    (m.setRing c r).ring d = if d = c then r else m.ring d := by
  cases c <;> cases d <;> rfl

@[simp] theorem Memory.setRing_rxh (m : Memory) (c : Chan) (r : Mem 16) : (m.setRing c r).rxh = m.rxh := by
  cases c <;> rfl

@[simp] theorem Memory.setRing_rxp (m : Memory) (c : Chan) (r : Mem 16) : (m.setRing c r).rxp = m.rxp := by
  cases c <;> rfl

@[simp] theorem Memory.setRing_txh (m : Memory) (c : Chan) (r : Mem 16) : (m.setRing c r).txh = m.txh := by
  cases c <;> rfl

theorem Memory.wf_setRing {m : Memory} (c : Chan) {r : Mem 16} (h : m.wf) (hr : r.wf) : (m.setRing c r).wf := by
  obtain ⟨h0, h1, h2, h3, h4⟩ := h
  cases c <;> exact ⟨by assumption, by assumption, h2, h3, h4⟩

theorem Memory.wf_ring {m : Memory} (c : Chan) (h : m.wf) : (m.ring c).wf := by
  cases c
  · exact h.1
  · exact h.2.1

/-- Reset memory is in canonical form and inside every size (R71). -/
theorem Memory.reset_wf (c : Config) : Memory.reset.wf ∧ Memory.reset.inBounds c := by
  simp [Memory.reset, Memory.wf, Mem.wf, Memory.inBounds, Mem.below]

end Sys2Proof.Machine
end

