-- ==== Sys2Proof/Laws/State.lean ====
section
/-! SUPPORT. What each named update of the state leaves as it was: one lemma per field and update. -/

namespace Sys2Proof.Machine

@[simp] theorem State.setChan_cfg (s : State) (c : Chan) (r : Channel) : (s.setChan c r).cfg = s.cfg := by cases c <;> rfl
@[simp] theorem State.setChan_rxFlag (s : State) (c : Chan) (r : Channel) : (s.setChan c r).rxFlag = s.rxFlag := by cases c <;> rfl
@[simp] theorem State.setChan_txFlag (s : State) (c : Chan) (r : Channel) : (s.setChan c r).txFlag = s.txFlag := by cases c <;> rfl
@[simp] theorem State.setChan_rxStalled (s : State) (c : Chan) (r : Channel) : (s.setChan c r).rxStalled = s.rxStalled := by cases c <;> rfl
@[simp] theorem State.setChan_rxPhase (s : State) (c : Chan) (r : Channel) : (s.setChan c r).rxPhase = s.rxPhase := by cases c <;> rfl
@[simp] theorem State.setChan_rxCount (s : State) (c : Chan) (r : Channel) : (s.setChan c r).rxCount = s.rxCount := by cases c <;> rfl
@[simp] theorem State.setChan_rxTarget (s : State) (c : Chan) (r : Channel) : (s.setChan c r).rxTarget = s.rxTarget := by cases c <;> rfl
@[simp] theorem State.setChan_rxFifo (s : State) (c : Chan) (r : Channel) : (s.setChan c r).rxFifo = s.rxFifo := by cases c <;> rfl
@[simp] theorem State.setChan_txPos (s : State) (c : Chan) (r : Channel) : (s.setChan c r).txPos = s.txPos := by cases c <;> rfl
@[simp] theorem State.setChan_txTotal (s : State) (c : Chan) (r : Channel) : (s.setChan c r).txTotal = s.txTotal := by cases c <;> rfl
@[simp] theorem State.setChan_txBulk (s : State) (c : Chan) (r : Channel) : (s.setChan c r).txBulk = s.txBulk := by cases c <;> rfl
@[simp] theorem State.setChan_acqBusy (s : State) (c : Chan) (r : Channel) : (s.setChan c r).acqBusy = s.acqBusy := by cases c <;> rfl
@[simp] theorem State.setChan_acqInterval (s : State) (c : Chan) (r : Channel) : (s.setChan c r).acqInterval = s.acqInterval := by cases c <;> rfl
@[simp] theorem State.setChan_acqLength (s : State) (c : Chan) (r : Channel) : (s.setChan c r).acqLength = s.acqLength := by cases c <;> rfl
@[simp] theorem State.setChan_acqOffsetBlocks (s : State) (c : Chan) (r : Channel) : (s.setChan c r).acqOffsetBlocks = s.acqOffsetBlocks := by cases c <;> rfl
@[simp] theorem State.setChan_acqIntra (s : State) (c : Chan) (r : Channel) : (s.setChan c r).acqIntra = s.acqIntra := by cases c <;> rfl
@[simp] theorem State.setChan_timerRunning (s : State) (c : Chan) (r : Channel) : (s.setChan c r).timerRunning = s.timerRunning := by cases c <;> rfl
@[simp] theorem State.setChan_timerInterval (s : State) (c : Chan) (r : Channel) : (s.setChan c r).timerInterval = s.timerInterval := by cases c <;> rfl
@[simp] theorem State.setChan_pendRx (s : State) (c : Chan) (r : Channel) : (s.setChan c r).pendRx = s.pendRx := by cases c <;> rfl
@[simp] theorem State.setChan_pendTx (s : State) (c : Chan) (r : Channel) : (s.setChan c r).pendTx = s.pendTx := by cases c <;> rfl
@[simp] theorem State.setChan_pendTick (s : State) (c : Chan) (r : Channel) : (s.setChan c r).pendTick = s.pendTick := by cases c <;> rfl
@[simp] theorem State.setChan_mlPhase (s : State) (c : Chan) (r : Channel) : (s.setChan c r).mlPhase = s.mlPhase := by cases c <;> rfl
@[simp] theorem State.setChan_mlReply (s : State) (c : Chan) (r : Channel) : (s.setChan c r).mlReply = s.mlReply := by cases c <;> rfl
@[simp] theorem State.setChan_hostOut (s : State) (c : Chan) (r : Channel) : (s.setChan c r).hostOut = s.hostOut := by cases c <;> rfl
@[simp] theorem State.setChan_faults (s : State) (c : Chan) (r : Channel) : (s.setChan c r).faults = s.faults := by cases c <;> rfl
@[simp] theorem State.setChan_refused (s : State) (c : Chan) (r : Channel) : (s.setChan c r).refused = s.refused := by cases c <;> rfl
@[simp] theorem State.setChan_mem (s : State) (c : Chan) (r : Channel) : (s.setChan c r).mem = s.mem := by cases c <;> rfl
@[simp] theorem State.setChan_moves (s : State) (c : Chan) (r : Channel) : (s.setChan c r).moves = s.moves := by cases c <;> rfl
@[simp] theorem State.setChan_drawn (s : State) (c : Chan) (r : Channel) : (s.setChan c r).drawn = s.drawn := by cases c <;> rfl

@[simp] theorem State.pend_cfg (s : State) (x : IntSource) : (s.pend x).cfg = s.cfg := by rcases x with _ | _ | (_ | _) | _ <;> rfl
@[simp] theorem State.pend_rxFlag (s : State) (x : IntSource) : (s.pend x).rxFlag = s.rxFlag := by rcases x with _ | _ | (_ | _) | _ <;> rfl
@[simp] theorem State.pend_txFlag (s : State) (x : IntSource) : (s.pend x).txFlag = s.txFlag := by rcases x with _ | _ | (_ | _) | _ <;> rfl
@[simp] theorem State.pend_rxStalled (s : State) (x : IntSource) : (s.pend x).rxStalled = s.rxStalled := by rcases x with _ | _ | (_ | _) | _ <;> rfl
@[simp] theorem State.pend_rxPhase (s : State) (x : IntSource) : (s.pend x).rxPhase = s.rxPhase := by rcases x with _ | _ | (_ | _) | _ <;> rfl
@[simp] theorem State.pend_rxCount (s : State) (x : IntSource) : (s.pend x).rxCount = s.rxCount := by rcases x with _ | _ | (_ | _) | _ <;> rfl
@[simp] theorem State.pend_rxTarget (s : State) (x : IntSource) : (s.pend x).rxTarget = s.rxTarget := by rcases x with _ | _ | (_ | _) | _ <;> rfl
@[simp] theorem State.pend_rxFifo (s : State) (x : IntSource) : (s.pend x).rxFifo = s.rxFifo := by rcases x with _ | _ | (_ | _) | _ <;> rfl
@[simp] theorem State.pend_txPos (s : State) (x : IntSource) : (s.pend x).txPos = s.txPos := by rcases x with _ | _ | (_ | _) | _ <;> rfl
@[simp] theorem State.pend_txTotal (s : State) (x : IntSource) : (s.pend x).txTotal = s.txTotal := by rcases x with _ | _ | (_ | _) | _ <;> rfl
@[simp] theorem State.pend_txBulk (s : State) (x : IntSource) : (s.pend x).txBulk = s.txBulk := by rcases x with _ | _ | (_ | _) | _ <;> rfl
@[simp] theorem State.pend_acqBusy (s : State) (x : IntSource) : (s.pend x).acqBusy = s.acqBusy := by rcases x with _ | _ | (_ | _) | _ <;> rfl
@[simp] theorem State.pend_acqInterval (s : State) (x : IntSource) : (s.pend x).acqInterval = s.acqInterval := by rcases x with _ | _ | (_ | _) | _ <;> rfl
@[simp] theorem State.pend_acqLength (s : State) (x : IntSource) : (s.pend x).acqLength = s.acqLength := by rcases x with _ | _ | (_ | _) | _ <;> rfl
@[simp] theorem State.pend_acqOffsetBlocks (s : State) (x : IntSource) : (s.pend x).acqOffsetBlocks = s.acqOffsetBlocks := by rcases x with _ | _ | (_ | _) | _ <;> rfl
@[simp] theorem State.pend_acqIntra (s : State) (x : IntSource) : (s.pend x).acqIntra = s.acqIntra := by rcases x with _ | _ | (_ | _) | _ <;> rfl
@[simp] theorem State.pend_timerRunning (s : State) (x : IntSource) : (s.pend x).timerRunning = s.timerRunning := by rcases x with _ | _ | (_ | _) | _ <;> rfl
@[simp] theorem State.pend_timerInterval (s : State) (x : IntSource) : (s.pend x).timerInterval = s.timerInterval := by rcases x with _ | _ | (_ | _) | _ <;> rfl
@[simp] theorem State.pend_mlPhase (s : State) (x : IntSource) : (s.pend x).mlPhase = s.mlPhase := by rcases x with _ | _ | (_ | _) | _ <;> rfl
@[simp] theorem State.pend_mlReply (s : State) (x : IntSource) : (s.pend x).mlReply = s.mlReply := by rcases x with _ | _ | (_ | _) | _ <;> rfl
@[simp] theorem State.pend_hostOut (s : State) (x : IntSource) : (s.pend x).hostOut = s.hostOut := by rcases x with _ | _ | (_ | _) | _ <;> rfl
@[simp] theorem State.pend_faults (s : State) (x : IntSource) : (s.pend x).faults = s.faults := by rcases x with _ | _ | (_ | _) | _ <;> rfl
@[simp] theorem State.pend_refused (s : State) (x : IntSource) : (s.pend x).refused = s.refused := by rcases x with _ | _ | (_ | _) | _ <;> rfl
@[simp] theorem State.pend_mem (s : State) (x : IntSource) : (s.pend x).mem = s.mem := by rcases x with _ | _ | (_ | _) | _ <;> rfl
@[simp] theorem State.pend_moves (s : State) (x : IntSource) : (s.pend x).moves = s.moves := by rcases x with _ | _ | (_ | _) | _ <;> rfl
@[simp] theorem State.pend_drawn (s : State) (x : IntSource) : (s.pend x).drawn = s.drawn := by rcases x with _ | _ | (_ | _) | _ <;> rfl

@[simp] theorem State.clearPend_cfg (s : State) (x : IntSource) : (s.clearPend x).cfg = s.cfg := by rcases x with _ | _ | (_ | _) | _ <;> rfl
@[simp] theorem State.clearPend_rxFlag (s : State) (x : IntSource) : (s.clearPend x).rxFlag = s.rxFlag := by rcases x with _ | _ | (_ | _) | _ <;> rfl
@[simp] theorem State.clearPend_txFlag (s : State) (x : IntSource) : (s.clearPend x).txFlag = s.txFlag := by rcases x with _ | _ | (_ | _) | _ <;> rfl
@[simp] theorem State.clearPend_rxStalled (s : State) (x : IntSource) : (s.clearPend x).rxStalled = s.rxStalled := by rcases x with _ | _ | (_ | _) | _ <;> rfl
@[simp] theorem State.clearPend_rxPhase (s : State) (x : IntSource) : (s.clearPend x).rxPhase = s.rxPhase := by rcases x with _ | _ | (_ | _) | _ <;> rfl
@[simp] theorem State.clearPend_rxCount (s : State) (x : IntSource) : (s.clearPend x).rxCount = s.rxCount := by rcases x with _ | _ | (_ | _) | _ <;> rfl
@[simp] theorem State.clearPend_rxTarget (s : State) (x : IntSource) : (s.clearPend x).rxTarget = s.rxTarget := by rcases x with _ | _ | (_ | _) | _ <;> rfl
@[simp] theorem State.clearPend_rxFifo (s : State) (x : IntSource) : (s.clearPend x).rxFifo = s.rxFifo := by rcases x with _ | _ | (_ | _) | _ <;> rfl
@[simp] theorem State.clearPend_txPos (s : State) (x : IntSource) : (s.clearPend x).txPos = s.txPos := by rcases x with _ | _ | (_ | _) | _ <;> rfl
@[simp] theorem State.clearPend_txTotal (s : State) (x : IntSource) : (s.clearPend x).txTotal = s.txTotal := by rcases x with _ | _ | (_ | _) | _ <;> rfl
@[simp] theorem State.clearPend_txBulk (s : State) (x : IntSource) : (s.clearPend x).txBulk = s.txBulk := by rcases x with _ | _ | (_ | _) | _ <;> rfl
@[simp] theorem State.clearPend_acqBusy (s : State) (x : IntSource) : (s.clearPend x).acqBusy = s.acqBusy := by rcases x with _ | _ | (_ | _) | _ <;> rfl
@[simp] theorem State.clearPend_acqInterval (s : State) (x : IntSource) : (s.clearPend x).acqInterval = s.acqInterval := by rcases x with _ | _ | (_ | _) | _ <;> rfl
@[simp] theorem State.clearPend_acqLength (s : State) (x : IntSource) : (s.clearPend x).acqLength = s.acqLength := by rcases x with _ | _ | (_ | _) | _ <;> rfl
@[simp] theorem State.clearPend_acqOffsetBlocks (s : State) (x : IntSource) : (s.clearPend x).acqOffsetBlocks = s.acqOffsetBlocks := by rcases x with _ | _ | (_ | _) | _ <;> rfl
@[simp] theorem State.clearPend_acqIntra (s : State) (x : IntSource) : (s.clearPend x).acqIntra = s.acqIntra := by rcases x with _ | _ | (_ | _) | _ <;> rfl
@[simp] theorem State.clearPend_timerRunning (s : State) (x : IntSource) : (s.clearPend x).timerRunning = s.timerRunning := by rcases x with _ | _ | (_ | _) | _ <;> rfl
@[simp] theorem State.clearPend_timerInterval (s : State) (x : IntSource) : (s.clearPend x).timerInterval = s.timerInterval := by rcases x with _ | _ | (_ | _) | _ <;> rfl
@[simp] theorem State.clearPend_mlPhase (s : State) (x : IntSource) : (s.clearPend x).mlPhase = s.mlPhase := by rcases x with _ | _ | (_ | _) | _ <;> rfl
@[simp] theorem State.clearPend_mlReply (s : State) (x : IntSource) : (s.clearPend x).mlReply = s.mlReply := by rcases x with _ | _ | (_ | _) | _ <;> rfl
@[simp] theorem State.clearPend_hostOut (s : State) (x : IntSource) : (s.clearPend x).hostOut = s.hostOut := by rcases x with _ | _ | (_ | _) | _ <;> rfl
@[simp] theorem State.clearPend_faults (s : State) (x : IntSource) : (s.clearPend x).faults = s.faults := by rcases x with _ | _ | (_ | _) | _ <;> rfl
@[simp] theorem State.clearPend_refused (s : State) (x : IntSource) : (s.clearPend x).refused = s.refused := by rcases x with _ | _ | (_ | _) | _ <;> rfl
@[simp] theorem State.clearPend_mem (s : State) (x : IntSource) : (s.clearPend x).mem = s.mem := by rcases x with _ | _ | (_ | _) | _ <;> rfl
@[simp] theorem State.clearPend_moves (s : State) (x : IntSource) : (s.clearPend x).moves = s.moves := by rcases x with _ | _ | (_ | _) | _ <;> rfl
@[simp] theorem State.clearPend_drawn (s : State) (x : IntSource) : (s.clearPend x).drawn = s.drawn := by rcases x with _ | _ | (_ | _) | _ <;> rfl

@[simp] theorem State.raise_cfg (s : State) (f : FaultName) : (s.raise f).cfg = s.cfg := rfl
@[simp] theorem State.raise_rxFlag (s : State) (f : FaultName) : (s.raise f).rxFlag = s.rxFlag := rfl
@[simp] theorem State.raise_txFlag (s : State) (f : FaultName) : (s.raise f).txFlag = s.txFlag := rfl
@[simp] theorem State.raise_rxStalled (s : State) (f : FaultName) : (s.raise f).rxStalled = s.rxStalled := rfl
@[simp] theorem State.raise_rxPhase (s : State) (f : FaultName) : (s.raise f).rxPhase = s.rxPhase := rfl
@[simp] theorem State.raise_rxCount (s : State) (f : FaultName) : (s.raise f).rxCount = s.rxCount := rfl
@[simp] theorem State.raise_rxTarget (s : State) (f : FaultName) : (s.raise f).rxTarget = s.rxTarget := rfl
@[simp] theorem State.raise_rxFifo (s : State) (f : FaultName) : (s.raise f).rxFifo = s.rxFifo := rfl
@[simp] theorem State.raise_txPos (s : State) (f : FaultName) : (s.raise f).txPos = s.txPos := rfl
@[simp] theorem State.raise_txTotal (s : State) (f : FaultName) : (s.raise f).txTotal = s.txTotal := rfl
@[simp] theorem State.raise_txBulk (s : State) (f : FaultName) : (s.raise f).txBulk = s.txBulk := rfl
@[simp] theorem State.raise_ch0 (s : State) (f : FaultName) : (s.raise f).ch0 = s.ch0 := rfl
@[simp] theorem State.raise_ch1 (s : State) (f : FaultName) : (s.raise f).ch1 = s.ch1 := rfl
@[simp] theorem State.raise_acqBusy (s : State) (f : FaultName) : (s.raise f).acqBusy = s.acqBusy := rfl
@[simp] theorem State.raise_acqInterval (s : State) (f : FaultName) : (s.raise f).acqInterval = s.acqInterval := rfl
@[simp] theorem State.raise_acqLength (s : State) (f : FaultName) : (s.raise f).acqLength = s.acqLength := rfl
@[simp] theorem State.raise_acqOffsetBlocks (s : State) (f : FaultName) : (s.raise f).acqOffsetBlocks = s.acqOffsetBlocks := rfl
@[simp] theorem State.raise_acqIntra (s : State) (f : FaultName) : (s.raise f).acqIntra = s.acqIntra := rfl
@[simp] theorem State.raise_timerRunning (s : State) (f : FaultName) : (s.raise f).timerRunning = s.timerRunning := rfl
@[simp] theorem State.raise_timerInterval (s : State) (f : FaultName) : (s.raise f).timerInterval = s.timerInterval := rfl
@[simp] theorem State.raise_pendRx (s : State) (f : FaultName) : (s.raise f).pendRx = s.pendRx := rfl
@[simp] theorem State.raise_pendTx (s : State) (f : FaultName) : (s.raise f).pendTx = s.pendTx := rfl
@[simp] theorem State.raise_pendTick (s : State) (f : FaultName) : (s.raise f).pendTick = s.pendTick := rfl
@[simp] theorem State.raise_mlPhase (s : State) (f : FaultName) : (s.raise f).mlPhase = s.mlPhase := rfl
@[simp] theorem State.raise_mlReply (s : State) (f : FaultName) : (s.raise f).mlReply = s.mlReply := rfl
@[simp] theorem State.raise_hostOut (s : State) (f : FaultName) : (s.raise f).hostOut = s.hostOut := rfl
@[simp] theorem State.raise_refused (s : State) (f : FaultName) : (s.raise f).refused = s.refused := rfl
@[simp] theorem State.raise_mem (s : State) (f : FaultName) : (s.raise f).mem = s.mem := rfl
@[simp] theorem State.raise_moves (s : State) (f : FaultName) : (s.raise f).moves = s.moves := rfl
@[simp] theorem State.raise_drawn (s : State) (f : FaultName) : (s.raise f).drawn = s.drawn := rfl

@[simp] theorem State.refuse_cfg (s : State) (r : RefusalName) : (s.refuse r).cfg = s.cfg := rfl
@[simp] theorem State.refuse_rxFlag (s : State) (r : RefusalName) : (s.refuse r).rxFlag = s.rxFlag := rfl
@[simp] theorem State.refuse_txFlag (s : State) (r : RefusalName) : (s.refuse r).txFlag = s.txFlag := rfl
@[simp] theorem State.refuse_rxStalled (s : State) (r : RefusalName) : (s.refuse r).rxStalled = s.rxStalled := rfl
@[simp] theorem State.refuse_rxPhase (s : State) (r : RefusalName) : (s.refuse r).rxPhase = s.rxPhase := rfl
@[simp] theorem State.refuse_rxCount (s : State) (r : RefusalName) : (s.refuse r).rxCount = s.rxCount := rfl
@[simp] theorem State.refuse_rxTarget (s : State) (r : RefusalName) : (s.refuse r).rxTarget = s.rxTarget := rfl
@[simp] theorem State.refuse_rxFifo (s : State) (r : RefusalName) : (s.refuse r).rxFifo = s.rxFifo := rfl
@[simp] theorem State.refuse_txPos (s : State) (r : RefusalName) : (s.refuse r).txPos = s.txPos := rfl
@[simp] theorem State.refuse_txTotal (s : State) (r : RefusalName) : (s.refuse r).txTotal = s.txTotal := rfl
@[simp] theorem State.refuse_txBulk (s : State) (r : RefusalName) : (s.refuse r).txBulk = s.txBulk := rfl
@[simp] theorem State.refuse_ch0 (s : State) (r : RefusalName) : (s.refuse r).ch0 = s.ch0 := rfl
@[simp] theorem State.refuse_ch1 (s : State) (r : RefusalName) : (s.refuse r).ch1 = s.ch1 := rfl
@[simp] theorem State.refuse_acqBusy (s : State) (r : RefusalName) : (s.refuse r).acqBusy = s.acqBusy := rfl
@[simp] theorem State.refuse_acqInterval (s : State) (r : RefusalName) : (s.refuse r).acqInterval = s.acqInterval := rfl
@[simp] theorem State.refuse_acqLength (s : State) (r : RefusalName) : (s.refuse r).acqLength = s.acqLength := rfl
@[simp] theorem State.refuse_acqOffsetBlocks (s : State) (r : RefusalName) : (s.refuse r).acqOffsetBlocks = s.acqOffsetBlocks := rfl
@[simp] theorem State.refuse_acqIntra (s : State) (r : RefusalName) : (s.refuse r).acqIntra = s.acqIntra := rfl
@[simp] theorem State.refuse_timerRunning (s : State) (r : RefusalName) : (s.refuse r).timerRunning = s.timerRunning := rfl
@[simp] theorem State.refuse_timerInterval (s : State) (r : RefusalName) : (s.refuse r).timerInterval = s.timerInterval := rfl
@[simp] theorem State.refuse_pendRx (s : State) (r : RefusalName) : (s.refuse r).pendRx = s.pendRx := rfl
@[simp] theorem State.refuse_pendTx (s : State) (r : RefusalName) : (s.refuse r).pendTx = s.pendTx := rfl
@[simp] theorem State.refuse_pendTick (s : State) (r : RefusalName) : (s.refuse r).pendTick = s.pendTick := rfl
@[simp] theorem State.refuse_mlPhase (s : State) (r : RefusalName) : (s.refuse r).mlPhase = s.mlPhase := rfl
@[simp] theorem State.refuse_mlReply (s : State) (r : RefusalName) : (s.refuse r).mlReply = s.mlReply := rfl
@[simp] theorem State.refuse_hostOut (s : State) (r : RefusalName) : (s.refuse r).hostOut = s.hostOut := rfl
@[simp] theorem State.refuse_faults (s : State) (r : RefusalName) : (s.refuse r).faults = s.faults := rfl
@[simp] theorem State.refuse_mem (s : State) (r : RefusalName) : (s.refuse r).mem = s.mem := rfl
@[simp] theorem State.refuse_moves (s : State) (r : RefusalName) : (s.refuse r).moves = s.moves := rfl
@[simp] theorem State.refuse_drawn (s : State) (r : RefusalName) : (s.refuse r).drawn = s.drawn := rfl

@[simp] theorem State.ringWrite_cfg (s : State) (c : Chan) (i : Nat) (v : U16) : (s.ringWrite c i v).cfg = s.cfg := rfl
@[simp] theorem State.ringWrite_rxFlag (s : State) (c : Chan) (i : Nat) (v : U16) : (s.ringWrite c i v).rxFlag = s.rxFlag := rfl
@[simp] theorem State.ringWrite_txFlag (s : State) (c : Chan) (i : Nat) (v : U16) : (s.ringWrite c i v).txFlag = s.txFlag := rfl
@[simp] theorem State.ringWrite_rxStalled (s : State) (c : Chan) (i : Nat) (v : U16) : (s.ringWrite c i v).rxStalled = s.rxStalled := rfl
@[simp] theorem State.ringWrite_rxPhase (s : State) (c : Chan) (i : Nat) (v : U16) : (s.ringWrite c i v).rxPhase = s.rxPhase := rfl
@[simp] theorem State.ringWrite_rxCount (s : State) (c : Chan) (i : Nat) (v : U16) : (s.ringWrite c i v).rxCount = s.rxCount := rfl
@[simp] theorem State.ringWrite_rxTarget (s : State) (c : Chan) (i : Nat) (v : U16) : (s.ringWrite c i v).rxTarget = s.rxTarget := rfl
@[simp] theorem State.ringWrite_rxFifo (s : State) (c : Chan) (i : Nat) (v : U16) : (s.ringWrite c i v).rxFifo = s.rxFifo := rfl
@[simp] theorem State.ringWrite_txPos (s : State) (c : Chan) (i : Nat) (v : U16) : (s.ringWrite c i v).txPos = s.txPos := rfl
@[simp] theorem State.ringWrite_txTotal (s : State) (c : Chan) (i : Nat) (v : U16) : (s.ringWrite c i v).txTotal = s.txTotal := rfl
@[simp] theorem State.ringWrite_txBulk (s : State) (c : Chan) (i : Nat) (v : U16) : (s.ringWrite c i v).txBulk = s.txBulk := rfl
@[simp] theorem State.ringWrite_ch0 (s : State) (c : Chan) (i : Nat) (v : U16) : (s.ringWrite c i v).ch0 = s.ch0 := rfl
@[simp] theorem State.ringWrite_ch1 (s : State) (c : Chan) (i : Nat) (v : U16) : (s.ringWrite c i v).ch1 = s.ch1 := rfl
@[simp] theorem State.ringWrite_acqBusy (s : State) (c : Chan) (i : Nat) (v : U16) : (s.ringWrite c i v).acqBusy = s.acqBusy := rfl
@[simp] theorem State.ringWrite_acqInterval (s : State) (c : Chan) (i : Nat) (v : U16) : (s.ringWrite c i v).acqInterval = s.acqInterval := rfl
@[simp] theorem State.ringWrite_acqLength (s : State) (c : Chan) (i : Nat) (v : U16) : (s.ringWrite c i v).acqLength = s.acqLength := rfl
@[simp] theorem State.ringWrite_acqOffsetBlocks (s : State) (c : Chan) (i : Nat) (v : U16) : (s.ringWrite c i v).acqOffsetBlocks = s.acqOffsetBlocks := rfl
@[simp] theorem State.ringWrite_acqIntra (s : State) (c : Chan) (i : Nat) (v : U16) : (s.ringWrite c i v).acqIntra = s.acqIntra := rfl
@[simp] theorem State.ringWrite_timerRunning (s : State) (c : Chan) (i : Nat) (v : U16) : (s.ringWrite c i v).timerRunning = s.timerRunning := rfl
@[simp] theorem State.ringWrite_timerInterval (s : State) (c : Chan) (i : Nat) (v : U16) : (s.ringWrite c i v).timerInterval = s.timerInterval := rfl
@[simp] theorem State.ringWrite_pendRx (s : State) (c : Chan) (i : Nat) (v : U16) : (s.ringWrite c i v).pendRx = s.pendRx := rfl
@[simp] theorem State.ringWrite_pendTx (s : State) (c : Chan) (i : Nat) (v : U16) : (s.ringWrite c i v).pendTx = s.pendTx := rfl
@[simp] theorem State.ringWrite_pendTick (s : State) (c : Chan) (i : Nat) (v : U16) : (s.ringWrite c i v).pendTick = s.pendTick := rfl
@[simp] theorem State.ringWrite_mlPhase (s : State) (c : Chan) (i : Nat) (v : U16) : (s.ringWrite c i v).mlPhase = s.mlPhase := rfl
@[simp] theorem State.ringWrite_mlReply (s : State) (c : Chan) (i : Nat) (v : U16) : (s.ringWrite c i v).mlReply = s.mlReply := rfl
@[simp] theorem State.ringWrite_hostOut (s : State) (c : Chan) (i : Nat) (v : U16) : (s.ringWrite c i v).hostOut = s.hostOut := rfl
@[simp] theorem State.ringWrite_faults (s : State) (c : Chan) (i : Nat) (v : U16) : (s.ringWrite c i v).faults = s.faults := rfl
@[simp] theorem State.ringWrite_refused (s : State) (c : Chan) (i : Nat) (v : U16) : (s.ringWrite c i v).refused = s.refused := rfl
@[simp] theorem State.ringWrite_moves (s : State) (c : Chan) (i : Nat) (v : U16) : (s.ringWrite c i v).moves = s.moves := rfl
@[simp] theorem State.ringWrite_drawn (s : State) (c : Chan) (i : Nat) (v : U16) : (s.ringWrite c i v).drawn = s.drawn := rfl

@[simp] theorem rearmRx_cfg (s : State) : (rearmRx s).cfg = s.cfg := rfl
@[simp] theorem rearmRx_rxFlag (s : State) : (rearmRx s).rxFlag = s.rxFlag := rfl
@[simp] theorem rearmRx_txFlag (s : State) : (rearmRx s).txFlag = s.txFlag := rfl
@[simp] theorem rearmRx_rxTarget (s : State) : (rearmRx s).rxTarget = s.rxTarget := rfl
@[simp] theorem rearmRx_rxFifo (s : State) : (rearmRx s).rxFifo = s.rxFifo := rfl
@[simp] theorem rearmRx_txPos (s : State) : (rearmRx s).txPos = s.txPos := rfl
@[simp] theorem rearmRx_txTotal (s : State) : (rearmRx s).txTotal = s.txTotal := rfl
@[simp] theorem rearmRx_txBulk (s : State) : (rearmRx s).txBulk = s.txBulk := rfl
@[simp] theorem rearmRx_ch0 (s : State) : (rearmRx s).ch0 = s.ch0 := rfl
@[simp] theorem rearmRx_ch1 (s : State) : (rearmRx s).ch1 = s.ch1 := rfl
@[simp] theorem rearmRx_acqBusy (s : State) : (rearmRx s).acqBusy = s.acqBusy := rfl
@[simp] theorem rearmRx_acqInterval (s : State) : (rearmRx s).acqInterval = s.acqInterval := rfl
@[simp] theorem rearmRx_acqLength (s : State) : (rearmRx s).acqLength = s.acqLength := rfl
@[simp] theorem rearmRx_acqOffsetBlocks (s : State) : (rearmRx s).acqOffsetBlocks = s.acqOffsetBlocks := rfl
@[simp] theorem rearmRx_acqIntra (s : State) : (rearmRx s).acqIntra = s.acqIntra := rfl
@[simp] theorem rearmRx_timerRunning (s : State) : (rearmRx s).timerRunning = s.timerRunning := rfl
@[simp] theorem rearmRx_timerInterval (s : State) : (rearmRx s).timerInterval = s.timerInterval := rfl
@[simp] theorem rearmRx_pendRx (s : State) : (rearmRx s).pendRx = s.pendRx := rfl
@[simp] theorem rearmRx_pendTx (s : State) : (rearmRx s).pendTx = s.pendTx := rfl
@[simp] theorem rearmRx_pendTick (s : State) : (rearmRx s).pendTick = s.pendTick := rfl
@[simp] theorem rearmRx_mlPhase (s : State) : (rearmRx s).mlPhase = s.mlPhase := rfl
@[simp] theorem rearmRx_mlReply (s : State) : (rearmRx s).mlReply = s.mlReply := rfl
@[simp] theorem rearmRx_hostOut (s : State) : (rearmRx s).hostOut = s.hostOut := rfl
@[simp] theorem rearmRx_faults (s : State) : (rearmRx s).faults = s.faults := rfl
@[simp] theorem rearmRx_refused (s : State) : (rearmRx s).refused = s.refused := rfl
@[simp] theorem rearmRx_mem (s : State) : (rearmRx s).mem = s.mem := rfl
@[simp] theorem rearmRx_moves (s : State) : (rearmRx s).moves = s.moves := rfl
@[simp] theorem rearmRx_drawn (s : State) : (rearmRx s).drawn = s.drawn := rfl

@[simp] theorem setReply_cfg (r : Option Header) (s : State) : (setReply r s).cfg = s.cfg := rfl
@[simp] theorem setReply_rxFlag (r : Option Header) (s : State) : (setReply r s).rxFlag = s.rxFlag := rfl
@[simp] theorem setReply_txFlag (r : Option Header) (s : State) : (setReply r s).txFlag = s.txFlag := rfl
@[simp] theorem setReply_rxStalled (r : Option Header) (s : State) : (setReply r s).rxStalled = s.rxStalled := rfl
@[simp] theorem setReply_rxPhase (r : Option Header) (s : State) : (setReply r s).rxPhase = s.rxPhase := rfl
@[simp] theorem setReply_rxCount (r : Option Header) (s : State) : (setReply r s).rxCount = s.rxCount := rfl
@[simp] theorem setReply_rxTarget (r : Option Header) (s : State) : (setReply r s).rxTarget = s.rxTarget := rfl
@[simp] theorem setReply_rxFifo (r : Option Header) (s : State) : (setReply r s).rxFifo = s.rxFifo := rfl
@[simp] theorem setReply_txPos (r : Option Header) (s : State) : (setReply r s).txPos = s.txPos := rfl
@[simp] theorem setReply_txTotal (r : Option Header) (s : State) : (setReply r s).txTotal = s.txTotal := rfl
@[simp] theorem setReply_txBulk (r : Option Header) (s : State) : (setReply r s).txBulk = s.txBulk := rfl
@[simp] theorem setReply_ch0 (r : Option Header) (s : State) : (setReply r s).ch0 = s.ch0 := rfl
@[simp] theorem setReply_ch1 (r : Option Header) (s : State) : (setReply r s).ch1 = s.ch1 := rfl
@[simp] theorem setReply_acqBusy (r : Option Header) (s : State) : (setReply r s).acqBusy = s.acqBusy := rfl
@[simp] theorem setReply_acqInterval (r : Option Header) (s : State) : (setReply r s).acqInterval = s.acqInterval := rfl
@[simp] theorem setReply_acqLength (r : Option Header) (s : State) : (setReply r s).acqLength = s.acqLength := rfl
@[simp] theorem setReply_acqOffsetBlocks (r : Option Header) (s : State) : (setReply r s).acqOffsetBlocks = s.acqOffsetBlocks := rfl
@[simp] theorem setReply_acqIntra (r : Option Header) (s : State) : (setReply r s).acqIntra = s.acqIntra := rfl
@[simp] theorem setReply_timerRunning (r : Option Header) (s : State) : (setReply r s).timerRunning = s.timerRunning := rfl
@[simp] theorem setReply_timerInterval (r : Option Header) (s : State) : (setReply r s).timerInterval = s.timerInterval := rfl
@[simp] theorem setReply_pendRx (r : Option Header) (s : State) : (setReply r s).pendRx = s.pendRx := rfl
@[simp] theorem setReply_pendTx (r : Option Header) (s : State) : (setReply r s).pendTx = s.pendTx := rfl
@[simp] theorem setReply_pendTick (r : Option Header) (s : State) : (setReply r s).pendTick = s.pendTick := rfl
@[simp] theorem setReply_hostOut (r : Option Header) (s : State) : (setReply r s).hostOut = s.hostOut := rfl
@[simp] theorem setReply_faults (r : Option Header) (s : State) : (setReply r s).faults = s.faults := rfl
@[simp] theorem setReply_refused (r : Option Header) (s : State) : (setReply r s).refused = s.refused := rfl
@[simp] theorem setReply_mem (r : Option Header) (s : State) : (setReply r s).mem = s.mem := rfl
@[simp] theorem setReply_moves (r : Option Header) (s : State) : (setReply r s).moves = s.moves := rfl
@[simp] theorem setReply_drawn (r : Option Header) (s : State) : (setReply r s).drawn = s.drawn := rfl

@[simp] theorem endAcquisition_cfg (s : State) : (endAcquisition s).cfg = s.cfg := rfl
@[simp] theorem endAcquisition_rxFlag (s : State) : (endAcquisition s).rxFlag = s.rxFlag := rfl
@[simp] theorem endAcquisition_txFlag (s : State) : (endAcquisition s).txFlag = s.txFlag := rfl
@[simp] theorem endAcquisition_rxStalled (s : State) : (endAcquisition s).rxStalled = s.rxStalled := rfl
@[simp] theorem endAcquisition_rxPhase (s : State) : (endAcquisition s).rxPhase = s.rxPhase := rfl
@[simp] theorem endAcquisition_rxCount (s : State) : (endAcquisition s).rxCount = s.rxCount := rfl
@[simp] theorem endAcquisition_rxTarget (s : State) : (endAcquisition s).rxTarget = s.rxTarget := rfl
@[simp] theorem endAcquisition_rxFifo (s : State) : (endAcquisition s).rxFifo = s.rxFifo := rfl
@[simp] theorem endAcquisition_txPos (s : State) : (endAcquisition s).txPos = s.txPos := rfl
@[simp] theorem endAcquisition_txTotal (s : State) : (endAcquisition s).txTotal = s.txTotal := rfl
@[simp] theorem endAcquisition_txBulk (s : State) : (endAcquisition s).txBulk = s.txBulk := rfl
@[simp] theorem endAcquisition_ch0 (s : State) : (endAcquisition s).ch0 = s.ch0 := rfl
@[simp] theorem endAcquisition_ch1 (s : State) : (endAcquisition s).ch1 = s.ch1 := rfl
@[simp] theorem endAcquisition_acqInterval (s : State) : (endAcquisition s).acqInterval = s.acqInterval := rfl
@[simp] theorem endAcquisition_acqLength (s : State) : (endAcquisition s).acqLength = s.acqLength := rfl
@[simp] theorem endAcquisition_acqOffsetBlocks (s : State) : (endAcquisition s).acqOffsetBlocks = s.acqOffsetBlocks := rfl
@[simp] theorem endAcquisition_acqIntra (s : State) : (endAcquisition s).acqIntra = s.acqIntra := rfl
@[simp] theorem endAcquisition_timerInterval (s : State) : (endAcquisition s).timerInterval = s.timerInterval := rfl
@[simp] theorem endAcquisition_pendRx (s : State) : (endAcquisition s).pendRx = s.pendRx := rfl
@[simp] theorem endAcquisition_pendTx (s : State) : (endAcquisition s).pendTx = s.pendTx := rfl
@[simp] theorem endAcquisition_pendTick (s : State) : (endAcquisition s).pendTick = s.pendTick := rfl
@[simp] theorem endAcquisition_mlPhase (s : State) : (endAcquisition s).mlPhase = s.mlPhase := rfl
@[simp] theorem endAcquisition_mlReply (s : State) : (endAcquisition s).mlReply = s.mlReply := rfl
@[simp] theorem endAcquisition_hostOut (s : State) : (endAcquisition s).hostOut = s.hostOut := rfl
@[simp] theorem endAcquisition_faults (s : State) : (endAcquisition s).faults = s.faults := rfl
@[simp] theorem endAcquisition_refused (s : State) : (endAcquisition s).refused = s.refused := rfl
@[simp] theorem endAcquisition_mem (s : State) : (endAcquisition s).mem = s.mem := rfl
@[simp] theorem endAcquisition_moves (s : State) : (endAcquisition s).moves = s.moves := rfl
@[simp] theorem endAcquisition_drawn (s : State) : (endAcquisition s).drawn = s.drawn := rfl

@[simp] theorem acquireStart_cfg (i l : U16) (s : State) : (acquireStart i l s).cfg = s.cfg := rfl
@[simp] theorem acquireStart_rxFlag (i l : U16) (s : State) : (acquireStart i l s).rxFlag = s.rxFlag := rfl
@[simp] theorem acquireStart_txFlag (i l : U16) (s : State) : (acquireStart i l s).txFlag = s.txFlag := rfl
@[simp] theorem acquireStart_rxStalled (i l : U16) (s : State) : (acquireStart i l s).rxStalled = s.rxStalled := rfl
@[simp] theorem acquireStart_rxPhase (i l : U16) (s : State) : (acquireStart i l s).rxPhase = s.rxPhase := rfl
@[simp] theorem acquireStart_rxCount (i l : U16) (s : State) : (acquireStart i l s).rxCount = s.rxCount := rfl
@[simp] theorem acquireStart_rxTarget (i l : U16) (s : State) : (acquireStart i l s).rxTarget = s.rxTarget := rfl
@[simp] theorem acquireStart_rxFifo (i l : U16) (s : State) : (acquireStart i l s).rxFifo = s.rxFifo := rfl
@[simp] theorem acquireStart_txPos (i l : U16) (s : State) : (acquireStart i l s).txPos = s.txPos := rfl
@[simp] theorem acquireStart_txTotal (i l : U16) (s : State) : (acquireStart i l s).txTotal = s.txTotal := rfl
@[simp] theorem acquireStart_txBulk (i l : U16) (s : State) : (acquireStart i l s).txBulk = s.txBulk := rfl
@[simp] theorem acquireStart_pendRx (i l : U16) (s : State) : (acquireStart i l s).pendRx = s.pendRx := rfl
@[simp] theorem acquireStart_pendTx (i l : U16) (s : State) : (acquireStart i l s).pendTx = s.pendTx := rfl
@[simp] theorem acquireStart_pendTick (i l : U16) (s : State) : (acquireStart i l s).pendTick = s.pendTick := rfl
@[simp] theorem acquireStart_mlPhase (i l : U16) (s : State) : (acquireStart i l s).mlPhase = s.mlPhase := rfl
@[simp] theorem acquireStart_mlReply (i l : U16) (s : State) : (acquireStart i l s).mlReply = s.mlReply := rfl
@[simp] theorem acquireStart_hostOut (i l : U16) (s : State) : (acquireStart i l s).hostOut = s.hostOut := rfl
@[simp] theorem acquireStart_faults (i l : U16) (s : State) : (acquireStart i l s).faults = s.faults := rfl
@[simp] theorem acquireStart_refused (i l : U16) (s : State) : (acquireStart i l s).refused = s.refused := rfl
@[simp] theorem acquireStart_mem (i l : U16) (s : State) : (acquireStart i l s).mem = s.mem := rfl
@[simp] theorem acquireStart_moves (i l : U16) (s : State) : (acquireStart i l s).moves = s.moves := rfl
@[simp] theorem acquireStart_drawn (i l : U16) (s : State) : (acquireStart i l s).drawn = s.drawn := rfl

@[simp] theorem markDone_cfg (c : Chan) (s : State) : (markDone c s).cfg = s.cfg := by cases c <;> rfl
@[simp] theorem markDone_rxFlag (c : Chan) (s : State) : (markDone c s).rxFlag = s.rxFlag := by cases c <;> rfl
@[simp] theorem markDone_txFlag (c : Chan) (s : State) : (markDone c s).txFlag = s.txFlag := by cases c <;> rfl
@[simp] theorem markDone_rxStalled (c : Chan) (s : State) : (markDone c s).rxStalled = s.rxStalled := by cases c <;> rfl
@[simp] theorem markDone_rxPhase (c : Chan) (s : State) : (markDone c s).rxPhase = s.rxPhase := by cases c <;> rfl
@[simp] theorem markDone_rxCount (c : Chan) (s : State) : (markDone c s).rxCount = s.rxCount := by cases c <;> rfl
@[simp] theorem markDone_rxTarget (c : Chan) (s : State) : (markDone c s).rxTarget = s.rxTarget := by cases c <;> rfl
@[simp] theorem markDone_rxFifo (c : Chan) (s : State) : (markDone c s).rxFifo = s.rxFifo := by cases c <;> rfl
@[simp] theorem markDone_txPos (c : Chan) (s : State) : (markDone c s).txPos = s.txPos := by cases c <;> rfl
@[simp] theorem markDone_txTotal (c : Chan) (s : State) : (markDone c s).txTotal = s.txTotal := by cases c <;> rfl
@[simp] theorem markDone_txBulk (c : Chan) (s : State) : (markDone c s).txBulk = s.txBulk := by cases c <;> rfl
@[simp] theorem markDone_acqBusy (c : Chan) (s : State) : (markDone c s).acqBusy = s.acqBusy := by cases c <;> rfl
@[simp] theorem markDone_acqInterval (c : Chan) (s : State) : (markDone c s).acqInterval = s.acqInterval := by cases c <;> rfl
@[simp] theorem markDone_acqLength (c : Chan) (s : State) : (markDone c s).acqLength = s.acqLength := by cases c <;> rfl
@[simp] theorem markDone_acqOffsetBlocks (c : Chan) (s : State) : (markDone c s).acqOffsetBlocks = s.acqOffsetBlocks := by cases c <;> rfl
@[simp] theorem markDone_acqIntra (c : Chan) (s : State) : (markDone c s).acqIntra = s.acqIntra := by cases c <;> rfl
@[simp] theorem markDone_timerRunning (c : Chan) (s : State) : (markDone c s).timerRunning = s.timerRunning := by cases c <;> rfl
@[simp] theorem markDone_timerInterval (c : Chan) (s : State) : (markDone c s).timerInterval = s.timerInterval := by cases c <;> rfl
@[simp] theorem markDone_pendRx (c : Chan) (s : State) : (markDone c s).pendRx = s.pendRx := by cases c <;> rfl
@[simp] theorem markDone_pendTx (c : Chan) (s : State) : (markDone c s).pendTx = s.pendTx := by cases c <;> rfl
@[simp] theorem markDone_pendTick (c : Chan) (s : State) : (markDone c s).pendTick = s.pendTick := by cases c <;> rfl
@[simp] theorem markDone_mlPhase (c : Chan) (s : State) : (markDone c s).mlPhase = s.mlPhase := by cases c <;> rfl
@[simp] theorem markDone_mlReply (c : Chan) (s : State) : (markDone c s).mlReply = s.mlReply := by cases c <;> rfl
@[simp] theorem markDone_hostOut (c : Chan) (s : State) : (markDone c s).hostOut = s.hostOut := by cases c <;> rfl
@[simp] theorem markDone_faults (c : Chan) (s : State) : (markDone c s).faults = s.faults := by cases c <;> rfl
@[simp] theorem markDone_refused (c : Chan) (s : State) : (markDone c s).refused = s.refused := by cases c <;> rfl
@[simp] theorem markDone_mem (c : Chan) (s : State) : (markDone c s).mem = s.mem := by cases c <;> rfl
@[simp] theorem markDone_moves (c : Chan) (s : State) : (markDone c s).moves = s.moves := by cases c <;> rfl
@[simp] theorem markDone_drawn (c : Chan) (s : State) : (markDone c s).drawn = s.drawn := by cases c <;> rfl

@[simp] theorem rearmChannel_cfg (c : Chan) (s : State) : (rearmChannel c s).cfg = s.cfg := by cases c <;> rfl
@[simp] theorem rearmChannel_rxFlag (c : Chan) (s : State) : (rearmChannel c s).rxFlag = s.rxFlag := by cases c <;> rfl
@[simp] theorem rearmChannel_txFlag (c : Chan) (s : State) : (rearmChannel c s).txFlag = s.txFlag := by cases c <;> rfl
@[simp] theorem rearmChannel_rxStalled (c : Chan) (s : State) : (rearmChannel c s).rxStalled = s.rxStalled := by cases c <;> rfl
@[simp] theorem rearmChannel_rxPhase (c : Chan) (s : State) : (rearmChannel c s).rxPhase = s.rxPhase := by cases c <;> rfl
@[simp] theorem rearmChannel_rxCount (c : Chan) (s : State) : (rearmChannel c s).rxCount = s.rxCount := by cases c <;> rfl
@[simp] theorem rearmChannel_rxTarget (c : Chan) (s : State) : (rearmChannel c s).rxTarget = s.rxTarget := by cases c <;> rfl
@[simp] theorem rearmChannel_rxFifo (c : Chan) (s : State) : (rearmChannel c s).rxFifo = s.rxFifo := by cases c <;> rfl
@[simp] theorem rearmChannel_txPos (c : Chan) (s : State) : (rearmChannel c s).txPos = s.txPos := by cases c <;> rfl
@[simp] theorem rearmChannel_txTotal (c : Chan) (s : State) : (rearmChannel c s).txTotal = s.txTotal := by cases c <;> rfl
@[simp] theorem rearmChannel_txBulk (c : Chan) (s : State) : (rearmChannel c s).txBulk = s.txBulk := by cases c <;> rfl
@[simp] theorem rearmChannel_acqBusy (c : Chan) (s : State) : (rearmChannel c s).acqBusy = s.acqBusy := by cases c <;> rfl
@[simp] theorem rearmChannel_acqInterval (c : Chan) (s : State) : (rearmChannel c s).acqInterval = s.acqInterval := by cases c <;> rfl
@[simp] theorem rearmChannel_acqLength (c : Chan) (s : State) : (rearmChannel c s).acqLength = s.acqLength := by cases c <;> rfl
@[simp] theorem rearmChannel_acqOffsetBlocks (c : Chan) (s : State) : (rearmChannel c s).acqOffsetBlocks = s.acqOffsetBlocks := by cases c <;> rfl
@[simp] theorem rearmChannel_acqIntra (c : Chan) (s : State) : (rearmChannel c s).acqIntra = s.acqIntra := by cases c <;> rfl
@[simp] theorem rearmChannel_timerRunning (c : Chan) (s : State) : (rearmChannel c s).timerRunning = s.timerRunning := by cases c <;> rfl
@[simp] theorem rearmChannel_timerInterval (c : Chan) (s : State) : (rearmChannel c s).timerInterval = s.timerInterval := by cases c <;> rfl
@[simp] theorem rearmChannel_pendRx (c : Chan) (s : State) : (rearmChannel c s).pendRx = s.pendRx := by cases c <;> rfl
@[simp] theorem rearmChannel_pendTx (c : Chan) (s : State) : (rearmChannel c s).pendTx = s.pendTx := by cases c <;> rfl
@[simp] theorem rearmChannel_pendTick (c : Chan) (s : State) : (rearmChannel c s).pendTick = s.pendTick := by cases c <;> rfl
@[simp] theorem rearmChannel_mlPhase (c : Chan) (s : State) : (rearmChannel c s).mlPhase = s.mlPhase := by cases c <;> rfl
@[simp] theorem rearmChannel_mlReply (c : Chan) (s : State) : (rearmChannel c s).mlReply = s.mlReply := by cases c <;> rfl
@[simp] theorem rearmChannel_hostOut (c : Chan) (s : State) : (rearmChannel c s).hostOut = s.hostOut := by cases c <;> rfl
@[simp] theorem rearmChannel_faults (c : Chan) (s : State) : (rearmChannel c s).faults = s.faults := by cases c <;> rfl
@[simp] theorem rearmChannel_refused (c : Chan) (s : State) : (rearmChannel c s).refused = s.refused := by cases c <;> rfl
@[simp] theorem rearmChannel_mem (c : Chan) (s : State) : (rearmChannel c s).mem = s.mem := by cases c <;> rfl
@[simp] theorem rearmChannel_moves (c : Chan) (s : State) : (rearmChannel c s).moves = s.moves := by cases c <;> rfl
@[simp] theorem rearmChannel_drawn (c : Chan) (s : State) : (rearmChannel c s).drawn = s.drawn := by cases c <;> rfl

/-! ## What the updates do change -/

@[simp] theorem State.setChan_chan_same (s : State) (c : Chan) (r : Channel) : (s.setChan c r).chan c = r := by
  cases c <;> rfl

theorem State.setChan_chan (s : State) (c d : Chan) (r : Channel) :
    (s.setChan c r).chan d = if d = c then r else s.chan d := by cases c <;> cases d <;> rfl

@[simp] theorem State.setChan_chan_other (s : State) (c : Chan) (r : Channel) :
    (s.setChan c r).chan c.other = s.chan c.other := by cases c <;> rfl

theorem State.pend_pending (s : State) (x y : IntSource) :
    (s.pend x).pending y = (decide (y = x) || s.pending y) := by
  rcases x with _ | _ | (_ | _) | _ <;> rcases y with _ | _ | (_ | _) | _ <;> rfl

theorem State.clearPend_pending (s : State) (x y : IntSource) :
    (s.clearPend x).pending y = (!decide (y = x) && s.pending y) := by
  rcases x with _ | _ | (_ | _) | _ <;> rcases y with _ | _ | (_ | _) | _ <;> rfl

@[simp] theorem Chan.other_other (c : Chan) : c.other.other = c := by cases c <;> rfl

theorem Chan.other_ne (c : Chan) : c.other ≠ c := by cases c <;> decide

/-- A raise adds its name and keeps every other (R287). -/
theorem mem_insertFault {f g : FaultName} {l : List FaultName} : g ∈ insertFault f l ↔ g = f ∨ g ∈ l := by
  induction l with
  | nil => simp [insertFault]
  | cons k l ih =>
    simp only [insertFault]
    split
    · subst_vars; simp
    · split
      · simp
      · simp only [List.mem_cons, ih]; tauto

@[simp] theorem State.mem_raise {s : State} {f g : FaultName} : g ∈ (s.raise f).faults ↔ g = f ∨ g ∈ s.faults :=
  mem_insertFault

theorem insertFault_ne_nil (f : FaultName) (l : List FaultName) : insertFault f l ≠ [] := by
  intro h
  have : f ∈ insertFault f l := mem_insertFault.2 (.inl rfl)
  rw [h] at this
  exact absurd this (by simp)

/-- A raised mark is there: the state is marked (R285). -/
@[simp] theorem State.raise_faults_ne_nil (s : State) (f : FaultName) : (s.raise f).faults ≠ [] :=
  insertFault_ne_nil f s.faults

@[simp] theorem State.refuse_refused (s : State) (r : RefusalName) :
    (s.refuse r).refused = some (s.refused.getD r) := rfl

@[simp] theorem State.ringWrite_mem (s : State) (c : Chan) (i : Nat) (v : U16) :
    (s.ringWrite c i v).mem = s.mem.setRing c ((s.mem.ring c).write i v) := rfl

end Sys2Proof.Machine
end

