-- ==== Sys2Proof/Laws/Invariant.lean ====
section
/-! SUPPORT. Which fields each part of the invariant reads: a part carries over to any state that agrees on
them. These are what a proof about one move cites for every part the move does not touch. -/

namespace Sys2Proof.Machine

variable {s t : State}

theorem State.readRxHeader_congr (h : t.mem.rxh = s.mem.rxh) : t.readRxHeader = s.readRxHeader := by
  simp [State.readRxHeader, h]

theorem State.headerHeld_congr {n : Nat} (hc : t.cfg = s.cfg) (hm : t.mem.rxh = s.mem.rxh) :
    t.headerHeld n ↔ s.headerHeld n := by
  simp [State.headerHeld, State.readRxHeader_congr hm, hc]

/-- The receive invariant reads the configuration, the receive fields, `ml_phase`, `RXH` and `RXP`. -/
theorem State.RxInv.congr (h : s.RxInv) (hc : t.cfg = s.cfg) (hp : t.rxPhase = s.rxPhase)
    (hn : t.rxCount = s.rxCount) (ht : t.rxTarget = s.rxTarget) (hf : t.rxFifo = s.rxFifo)
    (hq : t.pendRx = s.pendRx) (hr : t.rxFlag = s.rxFlag) (hl : t.mlPhase = s.mlPhase)
    (hh : t.mem.rxh = s.mem.rxh) (hm : t.mem.rxp = s.mem.rxp) : t.RxInv where
  fifo := by rw [hf, hc]; exact h.fifo
  inHeader := by rw [hp, hn, hh]; exact h.inHeader
  inHeaderDone := by rw [hp, hn, hh]; exact h.inHeaderDone
  inPayload := by rw [hp, hn, ht, hc, hm, State.headerHeld_congr hc hh]; exact h.inPayload
  inPayloadDone := by rw [hp, hn, ht, hc, hm, State.headerHeld_congr hc hh]; exact h.inPayloadDone
  pendingDone := by rw [hp, hq]; exact h.pendingDone
  flagOff := by rw [hp, hr, hl]; exact h.flagOff
  frameHeld := by
    rw [hr, hc, hm]
    intro hr'
    obtain ⟨n, h1, h2, h3⟩ := h.frameHeld hr'
    exact ⟨n, h1, (State.headerHeld_congr hc hh).2 h2, h3⟩
  mainOff := by rw [hp, hl]; exact h.mainOff

/-- The reply invariant reads the configuration, `ml_phase` and `ml_reply`. -/
theorem State.ReplyInv.congr (h : s.ReplyInv) (hc : t.cfg = s.cfg) (hl : t.mlPhase = s.mlPhase)
    (hr : t.mlReply = s.mlReply) : t.ReplyInv where
  onlyInReply := by rw [hl, hr]; exact h.onlyInReply
  known := by rw [hr, hc]; exact h.known

/-- The transmit invariant reads the configuration, the transmit fields, `TXH` and the rings; more written
ring cells do not hurt it. -/
theorem State.TxInv.congr (h : s.TxInv) (hc : t.cfg = s.cfg) (hf : t.txFlag = s.txFlag) (hp : t.txPos = s.txPos)
    (ht : t.txTotal = s.txTotal) (hb : t.txBulk = s.txBulk) (hq : t.pendTx = s.pendTx)
    (hm : t.mem.txh = s.mem.txh) (hr : s.ringsWritten → t.ringsWritten) : t.TxInv where
  inFlight := by
    rw [hf, hm, hp, ht, hb, hc]
    intro hf'
    obtain ⟨h1, h2, h3⟩ := h.inFlight hf'
    exact ⟨h1, h2, h3.imp id (fun x => ⟨x.1, x.2.1, hr x.2.2⟩)⟩
  pendingEnd := by rw [hq, hf, hp, ht]; exact h.pendingEnd

/-- A channel's invariant reads the configuration, its record, `acq_busy` and its ring; more written cells do
not hurt it. -/
theorem State.ChanInv.congr {c : Chan} (h : s.ChanInv c) (hc : t.cfg = s.cfg) (hr : t.chan c = s.chan c)
    (hb : t.acqBusy = s.acqBusy) (hm : ∀ a, (s.mem.ring c).written a → (t.mem.ring c).written a) :
    t.ChanInv c where
  slotInRange := by rw [hr, hc]; exact h.slotInRange
  posInRange := by rw [hr, hc]; exact h.posInRange
  countBound := by rw [hr, hc]; exact h.countBound
  landsOnZero := by rw [hr, hc]; exact h.landsOnZero
  armedBusy := by rw [hr, hb]; exact h.armedBusy
  pendingBusy := by rw [hr, hb]; exact h.pendingBusy
  busyActive := by rw [hr, hb]; exact h.busyActive
  doneCount := by rw [hr]; exact h.doneCount
  earlierBlocks := by rw [hr, hc]; exact fun x p hx hp ha hd => hm _ (h.earlierBlocks x p hx hp ha hd)
  currentBlock := by rw [hr, hc]; exact fun p hp ha => hm _ (h.currentBlock p hp ha)

/-- The acquisition invariant reads `timer_running`, `acq_busy` and the done flags. -/
theorem State.AcqInv.congr (h : s.AcqInv) (ht : t.timerRunning = s.timerRunning) (hb : t.acqBusy = s.acqBusy)
    (h0 : t.ch0.isDone = s.ch0.isDone) (h1 : t.ch1.isDone = s.ch1.isDone) : t.AcqInv where
  timerBusy := by rw [ht, hb]; exact h.timerBusy
  bothDone := by rw [h0, h1, hb]; exact h.bothDone

end Sys2Proof.Machine
end

