-- ==== Sys2Proof/Laws/Ops.lean ====
section
/-! SUPPORT. One lemma per shared operation: everything it can do (Ops.lean, Operands.lean, Agents.lean). A proof
about an instruction or a move cites these and unfolds none of the operations. -/

namespace Sys2Proof.Machine

variable {s t : State}

/-! ## How an operation goes on -/

@[simp] theorem Flow.outcome_cont (s : State) : (Flow.cont s).outcome = .next s := rfl

@[simp] theorem Flow.outcome_ends (s : State) : (Flow.ends s).outcome = .next s := rfl

@[simp] theorem Flow.outcome_stop (f : Fault) : (Flow.stop f).outcome = .fault f := rfl

@[simp] theorem Flow.andThen_cont (s : State) (k : State → Flow) : (Flow.cont s).andThen k = k s := rfl

@[simp] theorem Flow.andThen_ends (s : State) (k : State → Flow) : (Flow.ends s).andThen k = .ends s := rfl

@[simp] theorem Flow.andThen_stop (f : Fault) (k : State → Flow) : (Flow.stop f).andThen k = .stop f := rfl

/-- Returning from a handler restores nothing (R297). -/
@[simp] theorem returned_eq (o : Host.Outcome State Fault Refusal) : returned o = o := by cases o <;> rfl

/-! ## Steps and moves -/

theorem step_of_admissible (h : s.cfg.admissible) : step s = runMove (chooseMove s).1 (chooseMove s).2 := if_pos h

theorem chooseMove_cons {e : Event} {rest : List Event} (h : s.moves = e :: rest) :
    chooseMove s = (e, { s with moves := rest }) := by simp [chooseMove, h]

theorem chooseMove_nil (h : s.moves = []) :
    chooseMove s = (Config.freeMove s.drawn, { s with drawn := s.drawn + 1 }) := by simp [chooseMove, h]

theorem runMove_enabled {e : Event} (h : s.enabled e = true) : runMove e s = moveBody e s := if_pos h

theorem runMove_disabled {e : Event} (h : s.enabled e = false) : runMove e s = .next s := by simp [runMove, h]

/-- A move that is made answers the body's answer or changes nothing. -/
theorem runMove_cases (e : Event) (s : State) :
    (s.enabled e = true ∧ runMove e s = moveBody e s) ∨ (s.enabled e = false ∧ runMove e s = .next s) := by
  cases h : s.enabled e
  · exact .inr ⟨rfl, runMove_disabled h⟩
  · exact .inl ⟨rfl, runMove_enabled h⟩

/-! ## Memory operations keep their form (R70, R73) -/

theorem Memory.inBounds_ring {c : Config} {m : Memory} (d : Chan) (h : m.inBounds c) :
    (m.ring d).below c.ringSize := by
  cases d
  · exact h.1
  · exact h.2.1

theorem Memory.inBounds_setRing {c : Config} {m : Memory} (d : Chan) {r : Mem 16} (h : m.inBounds c)
    (hr : r.below c.ringSize) : (m.setRing d r).inBounds c := by
  cases d
  · exact ⟨hr, h.2⟩
  · exact ⟨h.1, hr, h.2.2⟩

/-- A sample write keeps the canonical form and the sizes (R73). -/
theorem State.ringWrite_form (c : Chan) {i : Nat} (v : U16) (hi : i < s.cfg.ringSize) (hw : s.mem.wf)
    (hb : s.mem.inBounds s.cfg) : (s.ringWrite c i v).mem.wf ∧ (s.ringWrite c i v).mem.inBounds s.cfg :=
  ⟨Memory.wf_setRing c hw (Mem.wf_write i v (Memory.wf_ring c hw)),
    Memory.inBounds_setRing c hb (Mem.below_write v (Memory.inBounds_ring c hb) hi)⟩

/-- A header byte write keeps the canonical form and the sizes. -/
theorem Memory.rxh_write_form {c : Config} {m : Memory} {i : Nat} (b : Byte) (hi : i < 8) (hw : m.wf)
    (hb : m.inBounds c) : Memory.wf { m with rxh := m.rxh.write i b } ∧
      Memory.inBounds c { m with rxh := m.rxh.write i b } :=
  ⟨⟨hw.1, hw.2.1, Mem.wf_write i b hw.2.2.1, hw.2.2.2⟩,
    ⟨hb.1, hb.2.1, Mem.below_write b hb.2.2.1 hi, hb.2.2.2⟩⟩

/-- A payload byte write keeps the canonical form and the sizes. -/
theorem Memory.rxp_write_form {c : Config} {m : Memory} {i : Nat} (b : Byte) (hi : i < c.rxPayloadMax) (hw : m.wf)
    (hb : m.inBounds c) : Memory.wf { m with rxp := m.rxp.write i b } ∧
      Memory.inBounds c { m with rxp := m.rxp.write i b } :=
  ⟨⟨hw.1, hw.2.1, hw.2.2.1, Mem.wf_write i b hw.2.2.2.1, hw.2.2.2.2⟩,
    ⟨hb.1, hb.2.1, hb.2.2.1, Mem.below_write b hb.2.2.2.1 hi, hb.2.2.2.2⟩⟩

/-- Writing a transmit header keeps the canonical form and the sizes (R172). -/
theorem Memory.txh_writeList_form {c : Config} {m : Memory} (h : Header) (hw : m.wf) (hb : m.inBounds c) :
    Memory.wf { m with txh := m.txh.writeList 0 h.bytes } ∧
      Memory.inBounds c { m with txh := m.txh.writeList 0 h.bytes } :=
  ⟨⟨hw.1, hw.2.1, hw.2.2.1, hw.2.2.2.1, Mem.wf_writeList 0 h.bytes hw.2.2.2.2⟩,
    ⟨hb.1, hb.2.1, hb.2.2.1, hb.2.2.2.1, Mem.below_writeList h.bytes hb.2.2.2.2 (by simp)⟩⟩

/-- A header written from cell 0 on: the cells below 8 hold its bytes, the others what they held. -/
theorem Mem.read_writeHeader (m : Mem 8) (h : Header) (a : Nat) :
    (m.writeList 0 h.bytes).read a = if a < 8 then h.bytes[a]? else m.read a := by
  rw [Mem.read_writeList, if_pos (Nat.zero_le a), Nat.sub_zero]
  by_cases ha : a < 8
  · simp [ha, List.getElem?_eq_getElem (show a < h.bytes.length by simpa using ha)]
  · simp [ha]

/-- A header written from cell 0 on reads back whole. -/
theorem Mem.cells_writeHeader (m : Mem 8) (h : Header) : (m.writeList 0 h.bytes).cells 8 0 8 = .value h.bytes := by
  rw [Mem.cells_value_iff _ _ _ _ _ (by omega)]
  refine ⟨rfl, fun i hi => ?_⟩
  rw [Nat.zero_add, Mem.read_writeHeader, if_pos hi]

/-- Bytes written from cell 0 on read back, when they fit. -/
theorem Mem.cells_writeList (m : Mem 8) {size : Nat} (bs : List Byte) (h : bs.length ≤ size) :
    (m.writeList 0 bs).cells size 0 bs.length = .value bs := by
  rw [Mem.cells_value_iff _ _ _ _ _ (by omega)]
  refine ⟨rfl, fun i hi => ?_⟩
  rw [Mem.read_writeList]
  simp [hi]

/-- Placing a frame keeps the canonical form and the sizes. -/
theorem placeFrame_form (h : Header) (pl : List Byte) (hw : s.mem.wf) (hb : s.mem.inBounds s.cfg) :
    (placeFrame h pl s).mem.wf ∧ (placeFrame h pl s).mem.inBounds s.cfg := by
  have hh := Mem.wf_writeList 0 h.bytes hw.2.2.1
  have bh := Mem.below_writeList h.bytes hb.2.2.1 (by simp : 0 + h.bytes.length ≤ 8)
  unfold placeFrame
  simp only
  split
  · rename_i hc
    exact ⟨⟨hw.1, hw.2.1, hh, Mem.wf_writeList 0 pl hw.2.2.2.1, hw.2.2.2.2⟩,
      ⟨hb.1, hb.2.1, bh, Mem.below_writeList pl hb.2.2.2.1 (by omega), hb.2.2.2.2⟩⟩
  · exact ⟨⟨hw.1, hw.2.1, hh, hw.2.2.2⟩, ⟨hb.1, hb.2.1, bh, hb.2.2.2⟩⟩

/-! ## Transport operations -/

/-- `start_tx` starts the transmit, or is `F_TX_OVERLAP` and nothing else (R172). -/
theorem startTx_cases (h : Header) (bulk : Bool) (plen : Nat) (s : State) :
    (s.txFlag = true ∧ startTx h bulk plen s = .ends (s.raise .txOverlap)) ∨
      (s.txFlag = false ∧ startTx h bulk plen s = .cont { s with
        mem := { s.mem with txh := s.mem.txh.writeList 0 h.bytes }
        txBulk := bulk, txPos := 0, txTotal := 8 + plen, txFlag := true }) := by
  cases hf : s.txFlag <;> simp [startTx, hf]

/-- `accept` of a header whose label is right: its three ways on (R164). -/
theorem acceptHeader_cases (p : Packet) (s : State) :
    (p.length = 0 ∧ acceptHeader p s = { s with rxPhase := .off, rxFlag := true, rxStalled := false }) ∨
      (p.length ≠ 0 ∧ s.cfg.rxPayloadMax < p.length.toNat ∧ acceptHeader p s = s.raise .rxLength) ∨
      (p.length ≠ 0 ∧ p.length.toNat ≤ s.cfg.rxPayloadMax ∧ acceptHeader p s =
        { s with rxPhase := .payload, rxCount := 0, rxTarget := p.length, rxStalled := false }) := by
  unfold acceptHeader
  split
  · exact .inl ⟨‹_›, rfl⟩
  · split
    · exact .inr (.inl ⟨‹_›, ‹_›, rfl⟩)
    · exact .inr (.inr ⟨‹_›, by omega, rfl⟩)

/-- A header byte of the current transmit (R174). -/
theorem txByteAt_header {k : Nat} (hk : k < 8) :
    txByteAt s k = match s.mem.txh.read k with
      | some b => .byte b
      | none => .unwritten := if_pos hk

/-- A payload position inside channel `c`'s half of a bulk transmit (R174): `q` counts bytes in the ring. -/
theorem bulkPlace_ring (c : Config) (d : Chan) {q : Nat} (hq : q < 2 * c.ringSize) :
    bulkPlace c (bulkBase c d + q) = some (d, q / 2, decide (q % 2 = 1)) := by
  have hR : 0 < 2 * c.ringSize := by omega
  cases d
  · simp only [bulkPlace, bulkBase, Nat.zero_add, Nat.div_eq_of_lt hq, Nat.mod_eq_of_lt hq]
  · simp only [bulkPlace, bulkBase, Nat.add_mod_left, Nat.mod_eq_of_lt hq, Nat.add_div_left q hR, Nat.div_eq_of_lt hq]

/-- A payload byte of a bulk transmit (R174): `q` counts bytes in channel `c`'s ring. -/
theorem txByteAt_ring (c : Chan) {q : Nat} (hb : s.txBulk = true) (hq : q < 2 * s.cfg.ringSize) :
    txByteAt s (8 + (bulkBase s.cfg c + q)) = match (s.mem.ring c).read (q / 2) with
      | some v => .byte (if q % 2 = 1 then hiByte v else loByte v)
      | none => .unwritten := by
  have hi : q / 2 < s.cfg.ringSize := by omega
  simp only [txByteAt, State.ringRead, Mem.cell, Nat.not_lt.mpr (Nat.le_add_right 8 _), Nat.add_sub_cancel_left,
    bulkPlace_ring _ _ hq, hb, hi, ↓reduceIte]
  cases (s.mem.ring c).read (q / 2) <;> simp

/-! ## Command operations -/

/-- `require_len` goes on unchanged, or is `F_CMD_LENGTH` and nothing else (R201). -/
theorem requireLen_cases (pl : List Byte) (n : Nat) (s : State) :
    (pl.length = n ∧ requireLen pl n s = .cont s) ∨
      (pl.length ≠ n ∧ requireLen pl n s = .ends (s.raise .cmdLength)) := by
  by_cases h : pl.length = n <;> simp [requireLen, h]

/-- The run payload has operands exactly when it has 4 bytes (R107, R108). -/
theorem runOperands_none {pl : List Byte} : runOperands pl = none ↔ pl.length ≠ 4 := by
  unfold runOperands
  split
  · simp
  · rename_i h
    simp only [true_iff]
    intro hl
    match pl, hl with
    | [p0, p1, p2, p3], _ => exact h p0 p1 p2 p3 rfl

/-- `acquire` starts the acquisition, or raises one of its three faults and does nothing else (R231). -/
theorem acquire_cases (interval l : U16) (s : State) :
    (∃ f, (f = .acqBusy ∨ f = .interval ∨ f = .window) ∧ acquire interval l s = .ends (s.raise f)) ∨
      (s.acqBusy = false ∧ interval ≠ 0 ∧ s.cfg.admitsLength l.toNat ∧
        acquire interval l s = .cont (acquireStart interval l s)) := by
  unfold acquire acquireChecks
  split
  · exact .inl ⟨_, .inl rfl, rfl⟩
  · split
    · exact .inl ⟨_, .inr (.inl rfl), rfl⟩
    · split
      · exact .inr ⟨by simpa using ‹¬s.acqBusy = true›, ‹_›, ‹_›, rfl⟩
      · exact .inl ⟨_, .inr (.inr rfl), rfl⟩

/-! ## Acquisition operations -/

/-- `sample_in` (R237, R238): the four things a sample can do to its channel. -/
theorem sampleIn_cases (c : Chan) (v : U16) (s : State) :
    ((s.chan c).dmaArmed = true ∧ (s.chan c).dmaPos + 1 ≠ s.cfg.nSamples ∧
        ringIndex s.cfg (s.chan c).blockWrite.toNat (s.chan c).dmaPos < s.cfg.ringSize ∧
        sampleIn c v s = .cont ((s.ringWrite c (ringIndex s.cfg (s.chan c).blockWrite.toNat (s.chan c).dmaPos) v).setChan c
          { s.chan c with dmaPos := (s.chan c).dmaPos + 1 })) ∨
      ((s.chan c).dmaArmed = true ∧ (s.chan c).dmaPos + 1 = s.cfg.nSamples ∧
        ringIndex s.cfg (s.chan c).blockWrite.toNat (s.chan c).dmaPos < s.cfg.ringSize ∧
        sampleIn c v s = .cont (((s.ringWrite c (ringIndex s.cfg (s.chan c).blockWrite.toNat (s.chan c).dmaPos) v).setChan c
          { s.chan c with dmaArmed := false, dmaPos := 0 }).pend (.adc c))) ∨
      ((s.chan c).dmaArmed = true ∧
        s.cfg.ringSize ≤ ringIndex s.cfg (s.chan c).blockWrite.toNat (s.chan c).dmaPos ∧
        sampleIn c v s = .stop (.noSuchCell (.ring c))) ∨
      ((s.chan c).dmaArmed = false ∧ s.awaitsRearm c = true ∧
        sampleIn c v s = .ends (s.raise (.adcOverrun c))) ∨
      ((s.chan c).dmaArmed = false ∧ s.awaitsRearm c = false ∧ sampleIn c v s = .cont s) := by
  unfold sampleIn
  split
  · rename_i ha
    unfold storeSample
    simp only
    split
    · split
      · exact .inr (.inl ⟨ha, ‹_›, ‹_›, rfl⟩)
      · exact .inl ⟨ha, ‹_›, ‹_›, rfl⟩
    · exact .inr (.inr (.inl ⟨ha, by omega, rfl⟩))
  · rename_i ha
    have ha : (s.chan c).dmaArmed = false := by simpa using ha
    cases hw : s.awaitsRearm c
    · exact .inr (.inr (.inr (.inr ⟨ha, rfl, by simp⟩)))
    · exact .inr (.inr (.inr (.inl ⟨ha, rfl, by simp⟩)))

/-- A sample cell's index is inside the ring when its slot and position are in range (R74). -/
theorem ringIndex_lt {c : Config} {x p : Nat} (hx : x < c.nBlocks) (hp : p < c.nSamples) :
    ringIndex c x p < c.ringSize := by
  have : (x + 1) * c.nSamples ≤ c.nBlocks * c.nSamples := Nat.mul_le_mul_right _ hx
  simp only [ringIndex, Config.ringSize]
  rw [Nat.add_mul] at this
  omega

end Sys2Proof.Machine
end

