-- ==== Sys2Proof/Laws/PerInstr.lean ====
section
/-! SUPPORT. The family `WireForm`, a statement about every instruction as syntax: its frame on the wire is its
8-byte header and then its payload bytes (R100, R103). -/

namespace Sys2Proof.Laws.WireForm

/-- Under every configuration in which the instruction is well formed, its encoding is a header and the payload,
every frame but FRAME_ERROR opens with `LABEL`, and a received frame's header declares its payload's length. -/
def Statement (i : Instr) : Prop :=
  ∀ c : Config, i.wellFormed c = true →
    takeHeader (encode c i) = some (i.header c, i.payload) ∧
      ((i.header c).b0 = c.label ↔ i.mnemonic ≠ "FRAME_ERROR") ∧
      (i.direction = .hostToDevice → (i.header c).b0 = c.label → (i.header c).lengthField.toNat = i.payload.length)

/-- A command frame with the right label. -/
theorem command {i : Instr} (code : Byte) (arg : Tag) (hm : i.mnemonic ≠ "FRAME_ERROR")
    (hh : ∀ c : Config, i.header c = mkHeader c.label code (BitVec.ofNat 16 i.payload.length) arg)
    (hl : ∀ c : Config, i.wellFormed c = true → i.payload.length ≤ 65535) : Statement i := by
  intro c hw
  have := hl c hw
  refine ⟨takeHeader_bytes (i.header c) i.payload, ?_, fun _ _ => ?_⟩
  · simp [hh, hm]
  · simp only [hh, mkHeader_lengthField, BitVec.toNat_ofNat]
    omega

/-- A frame the block sends. -/
theorem reply {i : Instr} (hd : i.direction = .deviceToHost) (hm : i.mnemonic ≠ "FRAME_ERROR")
    (hh : ∀ c : Config, (i.header c).b0 = c.label) : Statement i := fun c _ =>
  ⟨takeHeader_bytes (i.header c) i.payload, by simp [hh, hm], by simp [hd]⟩

theorem frameError (label code : Byte) (length : U16) (arg : Tag) :
    Statement (.frameError label code length arg) := by
  intro c hw
  have hl : label ≠ c.label := by simpa [Instr.wellFormed] using hw
  refine ⟨takeHeader_bytes _ _, ?_, fun _ h => absurd h hl⟩
  simp [Instr.header, Instr.mnemonic, hl]

theorem liveness (payload : List Byte) :
    Statement (.liveness payload) :=
  command codeK Tag.nock (by simp [Instr.mnemonic]) (fun _ => rfl) (fun c h => by simp_all [Instr.wellFormed, Instr.payload])

theorem version (payload : List Byte) :
    Statement (.version payload) :=
  command code8 Tag.ver (by simp [Instr.mnemonic]) (fun _ => rfl) (fun c h => by simp_all [Instr.wellFormed, Instr.payload])

theorem oscRun (payload : List Byte) :
    Statement (.oscRun payload) :=
  command codeO Tag.run (by simp [Instr.mnemonic]) (fun _ => rfl) (fun c h => by simp_all [Instr.wellFormed, Instr.payload])

theorem oscOther (arg : Tag) (payload : List Byte) :
    Statement (.oscOther arg payload) :=
  command codeO arg (by simp [Instr.mnemonic]) (fun _ => rfl) (fun c h => by simp_all [Instr.wellFormed, Instr.payload])

theorem voltmeter (arg : Tag) (payload : List Byte) :
    Statement (.voltmeter arg payload) :=
  command codeV arg (by simp [Instr.mnemonic]) (fun _ => rfl) (fun c h => by simp_all [Instr.wellFormed, Instr.payload])

theorem external (code : Byte) (arg : Tag) (payload : List Byte) :
    Statement (.external code arg payload) :=
  command code arg (by simp [Instr.mnemonic]) (fun _ => rfl) (fun c h => by simp_all [Instr.wellFormed, Instr.payload])

theorem kOther (arg : Tag) (payload : List Byte) :
    Statement (.kOther arg payload) :=
  command codeK arg (by simp [Instr.mnemonic]) (fun _ => rfl) (fun c h => by simp_all [Instr.wellFormed, Instr.payload])

theorem verOther (arg : Tag) (payload : List Byte) :
    Statement (.verOther arg payload) :=
  command code8 arg (by simp [Instr.mnemonic]) (fun _ => rfl) (fun c h => by simp_all [Instr.wellFormed, Instr.payload])

theorem unsupported (code : Byte) (arg : Tag) (payload : List Byte) :
    Statement (.unsupported code arg payload) :=
  command code arg (by simp [Instr.mnemonic]) (fun _ => rfl) (fun c h => by simp_all [Instr.wellFormed, Instr.payload])

theorem replyLiveness : Statement .replyLiveness :=
  reply rfl (by simp [Instr.mnemonic]) (fun _ => rfl)

theorem replyVersion : Statement .replyVersion :=
  reply rfl (by simp [Instr.mnemonic]) (fun _ => rfl)

theorem replyRunAck : Statement .replyRunAck :=
  reply rfl (by simp [Instr.mnemonic]) (fun _ => rfl)

theorem replyBulk (intra interval : U16) : Statement (.replyBulk intra interval) :=
  reply rfl (by simp [Instr.mnemonic]) (fun _ => rfl)

end Sys2Proof.Laws.WireForm
end

