-- ==== Sys2Proof/Tests/Slice0.lean ====
section
/-! SUPPORT. The model's own tests. Expected results are those of spec/95_test_vectors.md (the vector is named in
each docstring) or hand calculation from the rule named; then a concrete witness for the hypotheses of every
statement. Every test makes one step on a small state. -/

open Sys2Proof Sys2Proof.Machine

namespace Sys2Proof.Tests

/-! ## Helpers -/

/-- The state of V-E4: reset under the test configuration TC. -/
def tc : State := State.resetWith Config.tc

/-- The answer is a next state with the property. -/
def nextHas (o : Host.Outcome State Fault Refusal) (p : State → Bool) : Bool :=
  match o with
  | .next t => p t
  | .fault _ => false
  | .refused _ => false

/-- A frame received as far as `rx_flag` (95_test_vectors.md 2.3). -/
def received (bytes payload : List Byte) : State :=
  { tc with
    mem := { Memory.reset with rxh := Mem.writeList [] 0 bytes, rxp := Mem.writeList [] 0 payload }
    rxPhase := .off
    rxFlag := true }

/-- A header received as far as HEADER_DONE, its interrupt pending. -/
def headerDone (bytes : List Byte) : State :=
  { tc with mem := { Memory.reset with rxh := Mem.writeList [] 0 bytes }, rxPhase := .headerDone, rxCount := 8, pendRx := true }

/-- The bytes of `CMD_NOCK`, `CMD_VER` and the header of `CMD_RUN`. -/
def nock : List Byte := [0x4C, 0x6B, 0x00, 0x00, 0x6E, 0x6F, 0x63, 0x6B]

/-- The bytes of `CMD_VER`. -/
def ver : List Byte := [0x4C, 0x38, 0x00, 0x00, 0x76, 0x65, 0x72, 0x3F]

/-- The header of `CMD_RUN`. -/
def runHeader : List Byte := [0x4C, 0x6F, 0x04, 0x00, 0x72, 0x75, 0x6E, 0x21]

/-- The state of V-A3. -/
def running : State := acquireStart 100 4 tc

/-- A channel whose last block is complete and whose handler has not run. -/
def lastBlock : Channel := { Channel.reset with pendAdc := true }

/-- A ring with every cell of TC written, cell `i` holding `base + i`. -/
def fullRing (base : Nat) : Mem 16 := (List.range 16).map (fun i => (i, BitVec.ofNat 16 (base + i)))

/-- Both last-block handlers pending (V-A12), after `acquire(50, 8)`, rings written. -/
def finishing : State :=
  { tc with
    acqBusy := true, timerRunning := true, acqInterval := 50, acqLength := 8, acqIntra := 2
    ch0 := lastBlock, ch1 := lastBlock
    mem := { Memory.reset with ring0 := fullRing 0x100, ring1 := fullRing 0x200 } }

/-- A bulk transmit of 72 bytes in flight. -/
def sending : State :=
  { tc with
    txFlag := true, txBulk := true, txTotal := 72
    mem := { Memory.reset with
      ring0 := fullRing 0x100, ring1 := fullRing 0x200
      txh := Mem.writeList [] 0 [0x4C, 0x6F, 0x40, 0x00, 0x00, 0x00, 0x64, 0x00] } }

/-- A control reply in flight, the version reply of V-C11, with no ring cell written. -/
def answering : State :=
  { tc with
    txFlag := true, txBulk := false, txTotal := 8
    mem := { Memory.reset with txh := Mem.writeList [] 0 [0x4C, 0x38, 0x00, 0x00, 0x54, 0x30, 0x30, 0x31] } }

/-! ## Well-formedness refuses each ill-formed operand -/

theorem test_illformed_selection :
    [Instr.frameError 0x4C 0 0 Tag.nock, .oscOther Tag.run [], .external 0x7A Tag.nock [], .kOther Tag.nock [],
      .verOther Tag.ver [], .unsupported 0x67 Tag.nock [], .unsupported 0x6B Tag.run [], .unsupported 0x38 Tag.run [],
      .unsupported 0x6F Tag.run [], .unsupported 0x76 Tag.run []].all
        (fun i => !i.wellFormed Config.tc) = true := by decide

/-- Checks that only a configuration R13 excludes can reach: a set that holds `'o'`, `'v'`, `'k'` or `'8'`. -/
theorem test_illformed_external :
    let c := { Config.tc with externalCodes := [codeO, codeV, codeK, code8] }
    [Instr.external codeO Tag.nock [], .external codeV Tag.nock [], .external codeK Tag.nock [],
      .external code8 Tag.ver [], .kOther Tag.run [], .verOther Tag.run []].all
        (fun i => !i.wellFormed c) = true := by decide

/-- A payload of 65536 bytes has no length field (R100). -/
theorem test_illformed_length (pl : List Byte) (h : pl.length = 65536) :
    [Instr.liveness pl, .version pl, .oscRun pl, .oscOther Tag.nock pl, .voltmeter Tag.nock pl,
      .external 0x67 Tag.nock pl, .kOther Tag.run pl, .verOther Tag.run pl, .unsupported 0x7A Tag.nock pl].all
        (fun i => !i.wellFormed Config.tc) = true := by simp [Instr.wellFormed, h]

/-- A bulk reply of no byte, or of more than 65535 (R15). -/
theorem test_illformed_bulk :
    (Instr.replyBulk 0 0).wellFormed { Config.tc with nSamples := 0 } = false ∧
      (Instr.replyBulk 0 0).wellFormed { Config.tc with nSamples := 4096 } = false := by decide

/-- Configurations R6, R7, R8, R11, R12, R13, R14 and R15 exclude, and two that are admissible. -/
theorem test_admissible :
    [{ Config.tc with nBlocks := 3 }, { Config.tc with nBlocks := 1 }, { Config.tc with nSamples := 5 },
      { Config.tc with window := 14 }, { Config.tc with pre := 13 }, { Config.tc with rxPayloadMax := 3 },
      { Config.tc with rxFifoDepth := 0 }, { Config.tc with externalCodes := [0x6F] },
      { Config.tc with offsetFn := .table [(4, 0), (0, 0), (0, 0), (0, 0)] },
      { Config.tc with nBlocks := 4096 }].all (fun c : Config => !decide c.admissible) = true ∧
      [Config.tc, { Config.tc with offsetFn := .table [(3, 3), (2, 2), (3, 1), (0, 0)] }].all
        (fun c => decide c.admissible) = true := by decide

/-! ## Decoding, from words written out (R101, R105, R106, R109) -/

/-- V-C1, V-C12, V-C11, V-K8, V-K9: LIVENESS, VERSION, OSC_RUN, OSC_OTHER and VOLTMETER. -/
theorem test_decode_named :
    decode Config.tc .hostToDevice nock = .ok (.liveness [], []) ∧
    decode Config.tc .hostToDevice ver = .ok (.version [], []) ∧
    decode Config.tc .hostToDevice (runHeader ++ [0x64, 0x00, 0x04, 0x00]) = .ok (.oscRun [0x64, 0x00, 0x04, 0x00], []) ∧
    decode Config.tc .hostToDevice [0x4C, 0x6F, 0x00, 0x00, 0x66, 0x74, 0x63, 0x68] =
      .ok (.oscOther ⟨0x66, 0x74, 0x63, 0x68⟩ [], []) ∧
    decode Config.tc .hostToDevice [0x4C, 0x76, 0x00, 0x00, 0x73, 0x74, 0x72, 0x74] =
      .ok (.voltmeter ⟨0x73, 0x74, 0x72, 0x74⟩ [], []) := by decide

/-- V-K10, V-K4, V-K6, V-K11 and V-C2: EXTERNAL, K_OTHER, VER_OTHER, UNSUPPORTED and FRAME_ERROR (which takes its
8 bytes and no more, R142). -/
theorem test_decode_others :
    decode Config.tc .hostToDevice [0x4C, 0x67, 0x00, 0x00, 0x00, 0x00, 0x00, 0x00] =
      .ok (.external 0x67 ⟨0, 0, 0, 0⟩ [], []) ∧
    decode Config.tc .hostToDevice [0x4C, 0x6B, 0x00, 0x00, 0x4E, 0x4F, 0x43, 0x4B] =
      .ok (.kOther ⟨0x4E, 0x4F, 0x43, 0x4B⟩ [], []) ∧
    decode Config.tc .hostToDevice [0x4C, 0x38, 0x00, 0x00, 0x76, 0x65, 0x72, 0x21] =
      .ok (.verOther ⟨0x76, 0x65, 0x72, 0x21⟩ [], []) ∧
    decode Config.tc .hostToDevice [0x4C, 0x7A, 0x03, 0x00, 0x6E, 0x6F, 0x63, 0x6B, 0x01, 0x02, 0x03] =
      .ok (.unsupported 0x7A Tag.nock [1, 2, 3], []) ∧
    decode Config.tc .hostToDevice [0x4D, 0x6B, 0x02, 0x01, 0x6E, 0x6F, 0x63, 0x6B, 0x4C] =
      .ok (.frameError 0x4D 0x6B 0x0102 Tag.nock, [0x4C]) := by decide

/-- S1, V-K2, V-C4 and V-A20: the four replies. -/
theorem test_decode_replies :
    decode Config.tc .deviceToHost nock = .ok (.replyLiveness, []) ∧
    decode Config.tc .deviceToHost [0x4C, 0x38, 0x00, 0x00, 0x54, 0x30, 0x30, 0x31] = .ok (.replyVersion, []) ∧
    decode Config.tc .deviceToHost [0x4C, 0x6F, 0x00, 0x00, 0x72, 0x75, 0x6E, 0x21] = .ok (.replyRunAck, []) ∧
    decode Config.tc .deviceToHost [0x4C, 0x6F, 0x40, 0x00, 0x02, 0x00, 0x32, 0x00] = .ok (.replyBulk 2 50, []) := by
  decide

/-- Bytes that are no instruction, rejected by name: a header cut short, a payload cut short, no frame of R109. -/
theorem test_decode_refuses :
    decode Config.tc .hostToDevice [0x4C, 0x6B] = .error .shortHeader ∧
    decode Config.tc .hostToDevice (runHeader ++ [0x64]) = .error .shortPayload ∧
    decode Config.tc .deviceToHost runHeader = .error .notAReply := by decide

/-- V-C10, V-C11, V-C12: the header word `H`. -/
theorem test_header_word :
    (⟨0x4C, 0x6B, 0x00, 0x00, 0x6E, 0x6F, 0x63, 0x6B⟩ : Header).word = 0x6B636F6E00006B4C ∧
      (⟨0x4C, 0x6F, 0x04, 0x00, 0x72, 0x75, 0x6E, 0x21⟩ : Header).word = 0x216E757200046F4C ∧
      (⟨0x4C, 0x38, 0x00, 0x00, 0x76, 0x65, 0x72, 0x3F⟩ : Header).word = 0x3F7265760000384C := by decide

/-- V-C4 to V-C7 and V-C9: the encoders and the byte order. -/
theorem test_encoders :
    (encodeCtrl Config.tc codeO Tag.run).bytes = [0x4C, 0x6F, 0x00, 0x00, 0x72, 0x75, 0x6E, 0x21] ∧
      (encodeCtrl Config.tc code8 ⟨0x54, 0x30, 0x30, 0x31⟩).bytes = [0x4C, 0x38, 0x00, 0x00, 0x54, 0x30, 0x30, 0x31] ∧
      (encodeBulk Config.tc codeO 64 ⟨0, 0, 0x64, 0⟩).bytes = [0x4C, 0x6F, 0x40, 0x00, 0x00, 0x00, 0x64, 0x00] ∧
      (encodeBulk Config.tc codeO 0x0102 ⟨3, 0, 0x32, 0⟩).bytes = [0x4C, 0x6F, 0x02, 0x01, 0x03, 0x00, 0x32, 0x00] ∧
      le16 4 0 = 4 ∧ le16 0 1 = 256 ∧ bytesLE16 100 = [100, 0] := by decide

/-- V-C8: tag equality, no case folding, no reversal. -/
theorem test_tags :
    tagEq ⟨0x6E, 0x6F, 0x63, 0x6B⟩ Tag.nock = true ∧ tagEq ⟨0x4E, 0x4F, 0x43, 0x4B⟩ Tag.nock = false ∧
      tagEq ⟨0x6B, 0x63, 0x6F, 0x6E⟩ Tag.nock = false := by decide

/-- The table's own match words (spec/opcode_table.json rows LIVENESS, VERSION, OSC_RUN, OSC_OTHER) and what the
very next step does with them after reset: the liveness echo waits as the reply. -/
theorem test_table_words :
    decodeTableWord 64 0x6B636F6E00006B00 = some (.liveness []) ∧
      decodeTableWord 64 0x3F72657600003800 = some (.version []) ∧
      decodeTableWord 64 0x216E757200006F00 = some (.oscRun []) ∧
      decodeTableWord 64 0x0000000000006F00 = some (.oscOther ⟨0, 0, 0, 0⟩ []) ∧
      nextHas (step (State.reset.withFetchWord 64 0x6B636F6E00006B00))
        (fun t => decide (t.mlReply = some (livenessEcho Config.base))) = true := by decide

/-- A wrong label placed as the next frame: the next step drops it and re-arms (V-T5). -/
theorem test_placed_frame_error :
    nextHas (step (State.reset.withFetchWord 64 0x6B636F6E00006B01))
      (fun t => decide (t.rxPhase = .header) && decide (t.rxCount = 0) && !t.rxFlag && !t.pendRx) = true := by decide

/-! ## Instructions, one step each -/

/-- V-T5: FRAME_ERROR. -/
theorem test_frame_error :
    nextHas (runMove (.isr .rx) (headerDone [0x00, 0x6B, 0x00, 0x00, 0x6E, 0x6F, 0x63, 0x6B]))
      (fun t => decide (t.rxPhase = .header) && decide (t.rxCount = 0) && !t.rxFlag && t.hostOut.isEmpty) = true := by
  decide

/-- V-K1: LIVENESS. -/
theorem test_liveness :
    nextHas (runMove .ml (received nock []))
      (fun t => decide (t.mlReply.map Header.bytes = some nock) && decide (t.mlPhase = .reply) && !t.rxFlag) = true := by
  decide

/-- V-K5: LIVENESS with a payload is a fault; `rx_flag` is already cleared and `ml_phase` stays IDLE (R201). -/
theorem test_liveness_length :
    nextHas (runMove .ml (received [0x4C, 0x6B, 0x02, 0x00, 0x6E, 0x6F, 0x63, 0x6B] [0xAA, 0xBB]))
      (fun t => decide (t.faults = [.cmdLength]) && decide (t.mlReply = none) && decide (t.mlPhase = .idle) && !t.rxFlag) =
        true := by decide

/-- V-K2: VERSION. -/
theorem test_version :
    nextHas (runMove .ml (received ver []))
      (fun t => decide (t.mlReply.map Header.bytes = some [0x4C, 0x38, 0x00, 0x00, 0x54, 0x30, 0x30, 0x31])) = true := by
  decide

/-- V-K3 and V-A3: OSC_RUN. -/
theorem test_osc_run :
    nextHas (runMove .ml (received runHeader [0x64, 0x00, 0x04, 0x00]))
      (fun t => decide (t.ch0 = ⟨false, 5, 3, true, 0, false⟩) && decide (t.ch1 = t.ch0) && t.acqBusy && t.timerRunning &&
        decide (t.acqInterval = 100 ∧ t.acqLength = 4 ∧ t.acqOffsetBlocks = 1 ∧ t.acqIntra = 0 ∧ t.timerInterval = 100) &&
        decide (t.mlReply.map Header.bytes = some [0x4C, 0x6F, 0x00, 0x00, 0x72, 0x75, 0x6E, 0x21])) = true := by decide

/-- V-K7, V-A2, V-A4, V-A5: the order of OSC_RUN's faults. -/
theorem test_osc_run_faults :
    nextHas (exec (.oscRun []) running) (fun t => decide (t.faults = [.cmdLength])) = true ∧
      nextHas (exec (.oscRun [0, 0, 3, 0]) running) (fun t => decide (t.faults = [.acqBusy])) = true ∧
      nextHas (exec (.oscRun [0, 0, 3, 0]) tc) (fun t => decide (t.faults = [.interval])) = true ∧
      [0, 3, 10].all (fun l => nextHas (exec (.oscRun [100, 0, l, 0]) tc) (fun t => decide (t.faults = [.window]))) =
        true := by decide

/-- V-K8: OSC_OTHER; no reply is built and `ml_phase` stays. -/
theorem test_osc_other :
    nextHas (runMove .ml (received [0x4C, 0x6F, 0x00, 0x00, 0x66, 0x74, 0x63, 0x68] []))
      (fun t => decide (t.refused = some .oscOther) && decide (t.mlPhase = .idle) && decide (t.mlReply = none)) = true := by
  decide

/-- V-K9: VOLTMETER. -/
theorem test_voltmeter :
    nextHas (runMove .ml (received [0x4C, 0x76, 0x00, 0x00, 0x73, 0x74, 0x72, 0x74] []))
      (fun t => decide (t.refused = some .voltmeter)) = true := by decide

/-- V-K10: EXTERNAL. -/
theorem test_external :
    nextHas (runMove .ml (received [0x4C, 0x67, 0x00, 0x00, 0x00, 0x00, 0x00, 0x00] []))
      (fun t => decide (t.refused = some .external)) = true := by decide

/-- V-K4: K_OTHER. -/
theorem test_k_other :
    nextHas (runMove .ml (received [0x4C, 0x6B, 0x00, 0x00, 0x4E, 0x4F, 0x43, 0x4B] []))
      (fun t => decide (t.mlReply = none) && decide (t.mlPhase = .reply) && t.unmarked) = true := by decide

/-- V-K6: VER_OTHER. -/
theorem test_ver_other :
    nextHas (runMove .ml (received [0x4C, 0x38, 0x00, 0x00, 0x76, 0x65, 0x72, 0x21] []))
      (fun t => decide (t.mlReply = none) && decide (t.mlPhase = .reply) && t.unmarked) = true := by decide

/-- V-K11: UNSUPPORTED. -/
theorem test_unsupported :
    nextHas (runMove .ml (received [0x4C, 0x7A, 0x03, 0x00, 0x6E, 0x6F, 0x63, 0x6B] [1, 2, 3]))
      (fun t => decide (t.mlReply = none) && decide (t.mlPhase = .reply) && t.unmarked) = true := by decide

/-- V-T15: REPLY_LIVENESS. -/
theorem test_reply_liveness :
    nextHas (exec .replyLiveness tc)
      (fun t => decide (t.mem.txh.cells 8 0 8 = .value nock) && decide (t.txPos = 0 ∧ t.txTotal = 8) && t.txFlag) = true := by
  decide

/-- V-K2, after M2: REPLY_VERSION. -/
theorem test_reply_version :
    nextHas (exec .replyVersion tc)
      (fun t => decide (t.mem.txh.cells 8 0 8 = .value [0x4C, 0x38, 0x00, 0x00, 0x54, 0x30, 0x30, 0x31])) = true := by decide

/-- V-K3, after M2: REPLY_RUN_ACK. -/
theorem test_reply_run_ack :
    nextHas (exec .replyRunAck tc)
      (fun t => decide (t.mem.txh.cells 8 0 8 = .value [0x4C, 0x6F, 0x00, 0x00, 0x72, 0x75, 0x6E, 0x21])) = true := by decide

/-- V-A20: REPLY_BULK; V-A13: the transmit overlap. -/
theorem test_reply_bulk :
    nextHas (exec (.replyBulk 2 50) tc)
      (fun t => decide (t.mem.txh.cells 8 0 8 = .value [0x4C, 0x6F, 0x40, 0x00, 0x02, 0x00, 0x32, 0x00]) &&
        t.txBulk && decide (t.txTotal = 72)) = true ∧
      nextHas (exec (.replyBulk 2 50) sending) (fun t => decide (t.faults = [.txOverlap])) = true := by decide

/-! ## Moves of the agents -/

/-- V-T1: the queue takes its fourth byte, and not its fifth. -/
theorem test_host_send :
    nextHas (runMove (.send 9) { tc with rxFifo := [1, 2, 3] }) (fun t => decide (t.rxFifo = [1, 2, 3, 9])) = true ∧
      nextHas (runMove (.send 10) { tc with rxFifo := [1, 2, 3, 9] }) (fun t => decide (t.faults = [.rxFifoOverflow])) = true := by
  decide

/-- V-T3: the 8th header byte. -/
theorem test_header_move :
    nextHas (runMove .uart { tc with rxCount := 7, rxFifo := [0x6B] })
      (fun t => decide (t.mem.rxh.read 7 = some 0x6B ∧ t.rxCount = 8 ∧ t.rxPhase = .headerDone) && t.pendRx) = true := by
  decide

/-- V-T4, V-T6, V-T7: a header with no payload, one of 17 and one of 16 bytes. -/
theorem test_rx_handler :
    nextHas (runMove (.isr .rx) (headerDone nock)) (fun t => decide (t.rxPhase = .off) && t.rxFlag) = true ∧
      nextHas (runMove (.isr .rx) (headerDone [0x4C, 0x7A, 0x11, 0, 0, 0, 0, 0])) (fun t => decide (t.faults = [.rxLength])) =
        true ∧
      nextHas (runMove (.isr .rx) (headerDone [0x4C, 0x7A, 0x10, 0, 0, 0, 0, 0]))
        (fun t => decide (t.rxPhase = .payload ∧ t.rxTarget = 16 ∧ t.rxCount = 0)) = true := by decide

/-- V-T8, V-T9, V-T12: the stall detector. -/
theorem test_tick_handler :
    nextHas (runMove (.isr .tick) { tc with rxCount := 3, pendTick := true }) (fun t => t.rxStalled && decide (t.rxCount = 3)) =
        true ∧
      nextHas (runMove (.isr .tick) { tc with rxCount := 3, pendTick := true, rxStalled := true })
        (fun t => !t.rxStalled && decide (t.rxCount = 0 ∧ t.rxPhase = .header)) = true ∧
      nextHas (runMove (.isr .tick) { tc with pendTick := true }) (fun t => !t.rxStalled) = true := by decide

/-- V-T17, V-T18, V-T19: the last byte of a transmit, ring positions, an unwritten cell. -/
theorem test_transmit :
    nextHas (runMove .txb { sending with txPos := 71 }) (fun t => t.pendTx && decide (t.hostOut = [0x02])) = true ∧
      [8, 9, 39, 40, 71].map (txByteAt sending) =
        [.byte 0x00, .byte 0x01, .byte 0x01, .byte 0x00, .byte 0x02] ∧
      nextHas (runMove .txb { sending with txPos := 50, mem := { sending.mem with ring1 := [] } })
        (fun t => decide (t.faults = [.unwritten] ∧ t.txPos = 50)) = true := by decide

/-- V-A1: the window offsets of TC. -/
theorem test_offsets : [2, 4, 6, 8].map (offsetOf Config.tc) = [(1, 1), (1, 0), (0, 3), (0, 2)] := by decide

/-- The first tick of V-A3 (R236), and the block's last one (V-A8). -/
theorem test_sample :
    nextHas (runMove (.sample 0x1111 0x2222) running)
      (fun t => decide (t.mem.ring0.read 12 = some 0x1111 ∧ t.mem.ring1.read 12 = some 0x2222 ∧ t.ch0.dmaPos = 1)) = true ∧
      nextHas (runMove (.sample 0x1234 0) { running with ch0 := { running.ch0 with dmaPos := 3 } })
        (fun t => decide (t.mem.ring0.read 15 = some 0x1234 ∧ t.ch0.dmaPos = 0) && !t.ch0.dmaArmed && t.ch0.pendAdc) = true := by
  decide

/-- V-A9, V-A10: an unarmed channel overruns, or discards after its last block. -/
theorem test_unarmed :
    nextHas (runMove (.sample 1 2) { finishing with
        ch0 := { lastBlock with blockCount := 2 }, ch1 := { lastBlock with blockCount := 2 } })
      (fun t => decide (t.faults = [.adcOverrun .c0])) = true ∧
      nextHas (runMove (.sample 1 2) finishing) (fun t => decide (t = finishing)) = true := by decide

/-- V-A6 and V-A11: the re-arm wraps; the first channel to finish only marks itself. -/
theorem test_adc_handler :
    nextHas (runMove (.isr (.adc .c0)) { running with
        ch0 := { running.ch0 with dmaArmed := false, pendAdc := true } })
      (fun t => decide (t.ch0 = ⟨false, 4, 0, true, 0, false⟩)) = true ∧
      nextHas (runMove (.isr (.adc .c0)) finishing) (fun t => t.ch0.isDone && t.acqBusy && !t.txFlag) = true := by decide

/-- V-A12: the second channel hands off, in either order. -/
theorem test_handoff :
    nextHas (runMove (.isr (.adc .c1)) { finishing with ch0 := { Channel.reset with isDone := true } })
      (fun t => decide (t.mem.txh.cells 8 0 8 = .value [0x4C, 0x6F, 0x40, 0x00, 0x02, 0x00, 0x32, 0x00]) &&
        !t.timerRunning && !t.acqBusy && t.ch0.isDone && t.ch1.isDone) = true ∧
      nextHas (runMove (.isr (.adc .c0)) { finishing with ch1 := { Channel.reset with isDone := true } })
        (fun t => t.txFlag && t.txBulk) = true := by decide

/-- V-E1: a pending interrupt holds the main loop. -/
theorem test_main_loop_waits : ({ received nock [] with pendTick := true }).enabled .ml = false := by decide

/-- V-A16, V-A17: the cells of the chronological indexes 0, 4, 8, 12 and 15. -/
theorem test_chronology : [0, 4, 8, 12, 15].map (chronoCell Config.tc) = [4, 8, 12, 0, 3] := by decide

/-! ## Witnesses: for every statement with hypotheses, states and operands that meet all of them, each clause at
a boundary of its range -/

/-- TC is admissible, and so is the configuration of `State.reset`. -/
theorem test_tc_admissible : Config.tc.admissible ∧ Config.base.admissible := by decide

/-- Nothing written, nothing received: the receive side of every witness built on `tc`. -/
theorem tc_rxInv : tc.RxInv where
  fifo := by decide
  inHeader := fun _ => ⟨by decide, Mem.writtenBelow_zero _⟩
  inHeaderDone := nofun
  inPayload := nofun
  inPayloadDone := nofun
  pendingDone := nofun
  flagOff := nofun
  frameHeld := nofun
  mainOff := by decide

theorem tc_replyInv : tc.ReplyInv := ⟨fun _ => rfl, nofun⟩

theorem tc_txInv : tc.TxInv := ⟨nofun, nofun⟩

/-- A channel that is not armed, pending or done, while no acquisition runs. -/
theorem idle_chanInv {s : State} {c : Chan} (hr : s.chan c = Channel.reset) (hc : s.cfg = Config.tc)
    (hb : s.acqBusy = false) : s.ChanInv c := by
  constructor <;> simp [hr, hc, hb, Channel.reset, Config.tc, Config.base]

theorem test_witness_reset_inv : tc.Inv where
  config := test_tc_admissible.1
  memory := Memory.reset_wf _
  receive := tc_rxInv
  reply := tc_replyInv
  transmit := tc_txInv
  channel := fun c => idle_chanInv (by cases c <;> rfl) rfl rfl
  acquisition := ⟨rfl, nofun⟩
  neverUnwritten := by decide

theorem test_witness_reset_lockstep : tc.Lockstep :=
  ⟨by decide, fun _ _ => ⟨⟨rfl, rfl, rfl, rfl⟩, rfl, rfl, rfl, rfl⟩⟩

/-- A received LIVENESS frame waits: the invariant holds with `rx_flag` set. -/
theorem test_witness_waiting_inv : (received nock []).Inv ∧ (received nock []).rxFlag = true := by
  refine ⟨⟨test_tc_admissible.1, by decide, ?_, tc_replyInv.congr rfl rfl rfl, ?_, ?_, ⟨rfl, nofun⟩, by decide⟩, rfl⟩
  · refine ⟨by decide, nofun, nofun, nofun, nofun, nofun, by decide, fun _ => ⟨0, by decide, ?_, ?_⟩, by decide⟩
    · exact ⟨⟨0x4C, 0x6B, 0x00, 0x00, 0x6E, 0x6F, 0x63, 0x6B⟩, by decide, rfl, by decide⟩
    · exact Mem.writtenBelow_zero _
  · exact tc_txInv.congr rfl rfl rfl rfl rfl rfl rfl id
  · exact fun c => idle_chanInv (by cases c <;> rfl) rfl rfl

/-- The reply of that frame waits: the invariant holds in REPLY. -/
def replying : State := { tc with mlPhase := .reply, mlReply := some (livenessEcho Config.tc), rxPhase := .off }

theorem test_witness_replying_inv : replying.Inv ∧ replying.mlPhase ≠ .idle := by
  refine ⟨⟨test_tc_admissible.1, by decide, ?_, ⟨by decide, ?_⟩, ?_, ?_, ⟨rfl, nofun⟩, by decide⟩, by decide⟩
  · exact ⟨by decide, nofun, nofun, nofun, nofun, nofun, nofun, nofun, fun _ => rfl⟩
  · intro h hr
    exact .inl (Option.some.inj hr.symm)
  · exact tc_txInv.congr rfl rfl rfl rfl rfl rfl rfl id
  · exact fun c => idle_chanInv (by cases c <;> rfl) rfl rfl

/-- An acquisition has just started: the invariants hold with both channels armed. -/
theorem test_witness_running_inv : running.Inv ∧ running.Lockstep ∧ running.faults = [] ∧ running.acqBusy = true ∧
    running.ch0.isDone = false ∧ running.ch1.isDone = false ∧ running.ch0.dmaArmed = true := by
  refine ⟨⟨test_tc_admissible.1, Memory.reset_wf _, ?_, tc_replyInv.congr rfl rfl rfl, ?_, ?_, ⟨rfl, nofun⟩, by decide⟩,
    ⟨fun _ _ => .inl (by decide), by decide⟩, by decide⟩
  · exact tc_rxInv.congr rfl rfl rfl rfl rfl rfl rfl rfl rfl rfl
  · exact tc_txInv.congr rfl rfl rfl rfl rfl rfl rfl id
  · intro c
    have hr : running.chan c = ⟨false, 5, 3, true, 0, false⟩ := by cases c <;> decide
    have hn : ∀ x, slotDistance running.cfg (running.chan c) x < 4 := fun x => Nat.mod_lt _ (by decide)
    have h5 : (running.chan c).blockCount.toNat = 5 := by rw [hr]; rfl
    constructor
    case earlierBlocks =>
      intro x p _ _ _ hd
      have := hn x
      omega
    case currentBlock =>
      intro p _ ha
      rw [hr] at ha
      simp at ha
    all_goals (rw [hr]; decide)

/-- Both channels are done and the rings are full. -/
def finished : State :=
  { finishing with
    acqBusy := false, timerRunning := false
    ch0 := { Channel.reset with isDone := true }, ch1 := { Channel.reset with isDone := true } }

theorem fullRing_written (base : Nat) : (fullRing base).writtenBelow 16 := by
  intro a ha
  refine ⟨BitVec.ofNat 16 (base + a), ?_⟩
  interval_cases a <;> rfl

theorem test_witness_finished_inv : finished.Inv ∧ finished.Lockstep ∧ finished.ch0.isDone = true ∧
    finished.ch1.isDone = true := by
  refine ⟨⟨test_tc_admissible.1, by decide, ?_, tc_replyInv.congr rfl rfl rfl, ?_, ?_, ⟨rfl, fun _ _ => rfl⟩, by decide⟩,
    ⟨by decide, fun _ _ => ⟨⟨rfl, rfl, rfl, rfl⟩, rfl, rfl, rfl, rfl⟩⟩, rfl, rfl⟩
  · exact tc_rxInv.congr rfl rfl rfl rfl rfl rfl rfl rfl rfl rfl
  · exact ⟨nofun, nofun⟩
  · intro c
    have hr : finished.chan c = { Channel.reset with isDone := true } := by cases c <;> rfl
    have hw : ∀ i, i < 16 → (finished.mem.ring c).written i := by
      cases c
      · exact fullRing_written 0x100
      · exact fullRing_written 0x200
    constructor
    case earlierBlocks =>
      intro x p hx hp _ _
      exact hw _ (ringIndex_lt (c := Config.tc) hx hp)
    case currentBlock =>
      intro p hp _
      rw [hr]
      exact hw _ (ringIndex_lt (c := Config.tc) (by decide) hp)
    all_goals (rw [hr]; decide)

theorem test_witness_StepMakesTheNextMove :
    ({ tc with moves := [.tick] }).cfg.admissible ∧ tc.moves = [] ∧ ¬ { Config.tc with nBlocks := 3 : Config }.admissible := by
  decide

/-- M1 on a frame with the longest payload TC's buffer takes, and on `CMD_RUN`. -/
theorem test_witness_StepRunsTheReceivedCommand :
    let pl : List Byte := [1, 2, 3, 4, 5, 6, 7, 8, 9, 10, 11, 12, 13, 14, 15, 16]
    let h : Header := ⟨0x4C, 0x7A, 0x10, 0x00, 0, 0, 0, 0⟩
    let s : State := { received h.bytes pl with moves := [.ml] }
    s.cfg.admissible ∧ s.moves = .ml :: [] ∧ s.mlPhase = .idle ∧ s.rxFlag = true ∧ s.anyPending = false ∧
      s.readRxHeader = .value h.bytes ∧ h.b0 = s.cfg.label ∧ s.readRxPayload h.lengthField.toNat = .value pl ∧
      decode s.cfg .hostToDevice (h.bytes ++ pl) = .ok (.unsupported 0x7A ⟨0, 0, 0, 0⟩ pl, []) := by decide

theorem test_witness_StepRunsTheFrameError :
    let h : Header := ⟨0x4D, 0x6B, 0x00, 0x00, 0x6E, 0x6F, 0x63, 0x6B⟩
    let s : State := { headerDone h.bytes with moves := [.isr .rx] }
    s.cfg.admissible ∧ s.moves = .isr .rx :: [] ∧ s.pendRx = true ∧ s.rxPhase = .headerDone ∧
      s.readRxHeader = .value h.bytes ∧ h.b0 ≠ s.cfg.label := by decide

theorem test_witness_StepRunsTheWaitingReply :
    let s : State := { replying with moves := [.ml] }
    s.cfg.admissible ∧ s.moves = .ml :: [] ∧ s.mlPhase = .reply ∧ s.anyPending = false ∧
      s.mlReply = some (livenessEcho Config.tc) ∧
      decode s.cfg .deviceToHost (livenessEcho Config.tc).bytes = .ok (.replyLiveness, []) ∧
      (∀ intra interval, Instr.replyLiveness ≠ .replyBulk intra interval) := by
  refine ⟨by decide, rfl, rfl, by decide, rfl, by decide, nofun⟩

theorem test_witness_StepRunsTheBulkReply :
    let s : State := { finishing with moves := [.isr (.adc .c1)], ch0 := { Channel.reset with isDone := true } }
    s.cfg.admissible ∧ s.moves = .isr (.adc .c1) :: [] ∧ (s.chan .c1).pendAdc = true ∧ (s.chan .c1).blockCount = 0 ∧
      (s.chan Chan.c1.other).isDone = true := by decide

/-- Payloads of 0 bytes and of TC's 16. -/
theorem test_witness_PlacedFrameRunsNext :
    [([], (0 : Byte)), ([1, 2, 3, 4, 5, 6, 7, 8, 9, 10, 11, 12, 13, 14, 15, 16], 16)].all
      (fun p : List Byte × Byte =>
        let h : Header := ⟨0x4C, 0x7A, p.2, 0x00, 0, 0, 0, 0⟩
        decide (tc.cfg.admissible ∧ h.b0 = tc.cfg.label ∧ p.1.length = h.lengthField.toNat ∧
          p.1.length ≤ tc.cfg.rxPayloadMax)) = true := by decide

/-- A well-formed term of every constructor. -/
theorem test_witness_DecodeOfEncode :
    [Instr.frameError 0x4D 0xFF 0xFFFF Tag.run, .liveness [], .version [], .oscRun [0x64, 0, 4, 0], .oscOther Tag.ver [0xFF],
      .voltmeter Tag.run [], .external 0x67 Tag.nock [], .kOther Tag.run [], .verOther Tag.nock [],
      .unsupported 0x7A Tag.nock [1, 2, 3], .replyLiveness, .replyVersion, .replyRunAck,
      .replyBulk 0xFFFF 0xFFFF].all (fun i => i.wellFormed Config.tc) = true := by decide

theorem test_witness_EncodeOfDecode :
    decode Config.tc .hostToDevice (runHeader ++ [0x64, 0, 4, 0, 0x4C]) = .ok (.oscRun [0x64, 0, 4, 0], [0x4C]) := by decide

/-- A packet of each clause, and headers on both sides of the label check. -/
theorem test_witness_packets :
    (⟨0x4C, codeO, 0, Tag.run⟩ : Packet).label = Config.tc.label ∧
      (⟨0x4C, codeO, 0xFFFF, Tag.run⟩ : Packet).label = Config.tc.label ∧ (0xFFFF : U16) ≠ 0 ∧
      (⟨0x4D, 0, 0, 0, 0, 0, 0, 0⟩ : Header).b0 ≠ Config.tc.label ∧
      (⟨0x4C, 0, 0xFF, 0xFF, 0, 0, 0, 0⟩ : Header).b0 = Config.tc.label := by decide

theorem test_witness_DecoderAgreesWithOpcodeTable :
    ([] : List Byte).length = (⟨0x4C, 0x6B, 0, 0, 0, 0, 0, 0⟩ : Header).lengthField.toNat ∧
      ([7] : List Byte).length = (⟨0x4D, 0x6B, 1, 0, 0, 0, 0, 0⟩ : Header).lengthField.toNat := by decide

theorem test_witness_SentFramesPassTheLabelCheck :
    replying.Inv ∧ replying.mlReply = some (livenessEcho Config.tc) := ⟨test_witness_replying_inv.1, rfl⟩

theorem test_witness_LivenessEchoesTheHeader :
    let h : Header := ⟨0x4C, 0x6B, 0x00, 0x00, 0x6E, 0x6F, 0x63, 0x6B⟩
    (received nock []).readRxHeader = .value h.bytes ∧
      decode Config.tc .hostToDevice h.bytes = .ok (.liveness [], []) ∧ ([0xAA] : List Byte) ≠ [] := by decide

/-- The smallest and the largest admitted window length of TC, and the interval 1. -/
theorem test_witness_OscRunStartsAnAcquisition :
    tc.acqBusy = false ∧ le16 1 0 ≠ 0 ∧ tc.cfg.admitsLength (le16 2 0).toNat ∧ tc.cfg.admitsLength (le16 8 0).toNat ∧
      offsetOf tc.cfg (le16 2 0).toNat = (1, 1) ∧ offsetOf tc.cfg (le16 8 0).toNat = (0, 2) := by decide

/-- A length of each wrong kind next to 4, and an operand for each branch of the order. -/
theorem test_witness_OscRunFaultsInOrder :
    ([1, 2, 3] : List Byte).length ≠ 4 ∧ ([1, 2, 3, 4, 5] : List Byte).length ≠ 4 ∧ running.acqBusy = true ∧
      tc.acqBusy = false ∧ le16 0 0 = 0 ∧ (le16 0 0).toNat = 0 ∧ (le16 7 0).toNat % 2 ≠ 0 ∧
      tc.cfg.window < (le16 10 0).toNat ∧ tc.cfg.admitsLength (le16 8 0).toNat := by decide

theorem test_witness_RefusedRowsSetTheMark :
    tc.refused = none ∧ ({ tc with refused := some .voltmeter }).refused ≠ none := by decide

/-- An accepted run, a faulted one and a refusal: next states for the frame of the commands. -/
theorem test_witness_CommandsLeaveTheRestAlone :
    (Instr.oscRun [100, 0, 4, 0]).direction = .hostToDevice ∧ (Instr.oscRun [100, 0, 4, 0]).mnemonic ≠ "FRAME_ERROR" ∧
      (∃ t, exec (.oscRun [100, 0, 4, 0]) tc = .next t) ∧ (∃ t, exec (.oscRun []) tc = .next t ∧ t.mlPhase = tc.mlPhase) ∧
      ∃ t, exec (.voltmeter Tag.run []) tc = .next t ∧ t.mlPhase = tc.mlPhase :=
  ⟨rfl, by decide, ⟨_, rfl⟩, ⟨_, rfl, rfl⟩, ⟨_, rfl, rfl⟩⟩

theorem test_witness_replies :
    tc.txFlag = false ∧ sending.txFlag = true ∧ (Instr.replyBulk 0 0).direction = .deviceToHost ∧
      (∃ t, exec .replyVersion tc = .next t) ∧ ∃ t, exec (.replyBulk 2 50) sending = .next t :=
  ⟨rfl, rfl, rfl, ⟨_, rfl⟩, ⟨_, rfl⟩⟩

/-- The first, the 7th and the 8th header byte. -/
theorem test_witness_HeaderByteMoves :
    [0, 6, 7].all (fun n =>
      let s : State := { tc with rxCount := n, rxFifo := [0x6B] }
      decide (s.rxPhase = .header ∧ s.rxFifo = 0x6B :: [] ∧ s.rxCount < 8)) = true ∧ 6 + 1 ≠ 8 ∧ 7 + 1 = 8 ∧
      tc.rxFifo = [] ∧ (headerDone nock).rxPhase ≠ .header ∧ (headerDone nock).rxPhase ≠ .payload := by decide

/-- A payload of one byte, and the first and last byte of TC's longest. -/
theorem test_witness_PayloadByteMoves :
    [(0, (1 : U16)), (0, 16), (15, 16)].all (fun p : Nat × U16 =>
      let s : State := { tc with rxPhase := .payload, rxCount := p.1, rxTarget := p.2, rxFifo := [7] }
      decide (s.rxPhase = .payload ∧ s.rxFifo = 7 :: [] ∧ s.rxCount < s.cfg.rxPayloadMax)) = true ∧
      0 + 1 ≠ (16 : U16).toNat ∧ 15 + 1 = (16 : U16).toNat := by decide

/-- A header for each branch: wrong label, length 0, 17 and 16; and a completed payload. -/
theorem test_witness_ReceiveHandlerByPhase :
    [(⟨0x4D, 0x6B, 0, 0, 0, 0, 0, 0⟩ : Header), ⟨0x4C, 0x6B, 0, 0, 0, 0, 0, 0⟩, ⟨0x4C, 0x6B, 17, 0, 0, 0, 0, 0⟩,
      ⟨0x4C, 0x6B, 16, 0, 0, 0, 0, 0⟩].all (fun h =>
        let s := headerDone h.bytes
        decide (s.pendRx = true ∧ s.rxPhase = .headerDone ∧ s.readRxHeader = .value h.bytes)) = true ∧
      ({ tc with rxPhase := .payloadDone, pendRx := true }).pendRx = true := by decide

theorem test_witness_WaitingFrameHoldsReception :
    ((received nock []).Inv ∧ (received nock []).rxFlag = true) ∧ replying.Inv ∧ replying.mlPhase ≠ .idle :=
  ⟨test_witness_waiting_inv, test_witness_replying_inv⟩

theorem test_witness_ticks : ({ tc with pendTick := true }).pendTick = true := rfl

/-- V-T11: a byte arrives and a tick fires between the two handler runs. -/
theorem test_witness_StalledHeaderIsReset :
    ∃ t u : State,
      let s : State := { tc with rxCount := 3, pendTick := true }
      let moves : List Event := [.send 0, .uart, .tick]
      s.pendTick = true ∧ s.rxPhase = .header ∧ 0 < s.rxCount ∧ s.rxStalled = false ∧
        runMove (.isr .tick) s = .next t ∧ (∀ e ∈ moves, e ≠ .isr .rx ∧ e ≠ .isr .tick ∧ e ≠ .ml) ∧
        runMoves moves t = .next u ∧ u.pendTick = true ∧ u.rxPhase = .header ∧ 0 < u.rxCount :=
  ⟨_, _, rfl, rfl, by decide, rfl, rfl, by decide, rfl, rfl, rfl, by decide⟩

/-- The first byte of a bulk and of a control reply, a bulk reply's last byte, an unwritten cell; a pending transmit
handler; no transmit in flight, and one whose bytes are all sent. -/
theorem test_witness_TransmitSendsEachByteAndEnds :
    (sending.txFlag = true ∧ sending.txPos < sending.txTotal ∧ txByteAt sending sending.txPos = .byte 0x4C) ∧
      txByteAt { sending with txPos := 71 } 71 = .byte 0x02 ∧
      txByteAt { sending with mem := { sending.mem with ring1 := [] } } 71 = .unwritten ∧
      ({ sending with pendTx := true }).pendTx = true ∧
      (answering.txFlag = true ∧ answering.txPos < answering.txTotal ∧ txByteAt answering 0 = .byte 0x4C) ∧
      tc.txFlag = false ∧ ({ answering with txPos := 8 }).txTotal ≤ 8 := by decide

/-- The last header byte of a bulk and of a control reply, a header cell never written, the last cell of each ring,
and a ring cell never written. -/
theorem test_witness_BulkPayloadOrder :
    sending.txBulk = true ∧ 7 < 8 ∧ sending.mem.txh.read 7 = some 0x00 ∧ 15 < sending.cfg.ringSize ∧
      sending.mem.ring0.read 15 = some 0x10F ∧ sending.mem.ring1.read 15 = some 0x20F ∧
      (answering.txBulk = false ∧ answering.mem.txh.read 7 = some 0x31) ∧ tc.mem.txh.read 7 = none ∧
      ({ answering with txBulk := true }).mem.ring0.read 15 = none ∧
      ({ answering with txBulk := true }).mem.ring1.read 15 = none := by decide

theorem test_witness_PackedWordsOnTheWire :
    sending.txBulk = true ∧ 2 * 7 + 1 < sending.cfg.ringSize ∧ sending.ringWord .c0 7 = some 0x010F010E ∧
      sending.ringWord .c1 7 = some 0x020F020E := by decide

theorem test_witness_MainLoopWaitsAndRearms :
    ({ tc with pendTick := true }).anyPending = true ∧ (tc.mlPhase = .idle ∧ tc.rxFlag = false) ∧
      (({ replying with mlReply := none }).mlPhase = .reply ∧ ({ replying with mlReply := none }).anyPending = false) ∧
      ({ tc with mlPhase := .rearm }).mlPhase = .rearm ∧ ({ tc with mlPhase := .rearm }).anyPending = false := by decide

/-- A handler run of each source, and a source with nothing pending. -/
theorem test_witness_HandlersKeepTheMainLoopPosition :
    (∃ t, runMove (.isr .rx) (headerDone nock) = .next t) ∧
      (∃ t, runMove (.isr .tx) { sending with pendTx := true } = .next t) ∧
      (∃ t, runMove (.isr .tick) { tc with pendTick := true } = .next t) ∧
      (∃ t, runMove (.isr (.adc .c0)) finishing = .next t) ∧ (∃ t, runMove (.isr (.adc .c1)) finishing = .next t) ∧
      tc.pending (.adc .c1) = false :=
  ⟨⟨_, rfl⟩, ⟨_, rfl⟩, ⟨_, rfl⟩, ⟨_, rfl⟩, ⟨_, rfl⟩, rfl⟩

/-- The first sample of an acquisition, and the last of a block. -/
theorem test_witness_SampleTickStoresBothChannels :
    [0, 3].all (fun p =>
      let s : State := { running with ch0 := { running.ch0 with dmaPos := p }, ch1 := { running.ch1 with dmaPos := p } }
      decide (s.timerRunning = true ∧ s.ch0.dmaArmed = true ∧ s.ch1.dmaArmed = true ∧
        ringIndex s.cfg s.ch0.blockWrite.toNat s.ch0.dmaPos < s.cfg.ringSize ∧
        ringIndex s.cfg s.ch1.blockWrite.toNat s.ch1.dmaPos < s.cfg.ringSize)) = true := by decide

/-- An armed channel at its block's first and last sample; an unarmed one with a block left, and with none. -/
theorem test_witness_SampleReachesItsChannel :
    (∀ c, (running.chan c).dmaArmed = true ∧
      (running.chan c).blockWrite.toNat * running.cfg.nSamples + (running.chan c).dmaPos < running.cfg.ringSize) ∧
      ((({ running with ch0 := { running.ch0 with dmaPos := 3 } }).chan .c0).dmaArmed = true ∧ 3 * 4 + 3 < 16) ∧
      (∀ c, (finishing.chan c).dmaArmed = false) ∧
      (({ finishing with ch1 := { lastBlock with blockCount := 1 } }).chan .c1).blockCount ≠ 0 := by
  refine ⟨fun c => ?_, by decide, fun c => ?_, by decide⟩ <;> cases c <;> decide

/-- One block left, and none left with the other channel not done, done, and done during a transmit. -/
theorem test_witness_channel_handler :
    let one : State := { finishing with ch0 := { lastBlock with blockCount := 1 } }
    let second : State := { finishing with ch1 := { Channel.reset with isDone := true } }
    (one.chan .c0).pendAdc = true ∧ (one.chan .c0).blockCount ≠ 0 ∧ (finishing.chan .c0).pendAdc = true ∧
      (finishing.chan .c0).blockCount = 0 ∧ (finishing.chan Chan.c0.other).isDone = false ∧
      (second.chan Chan.c0.other).isDone = true ∧ second.txFlag = false ∧ ({ second with txFlag := true }).txFlag = true := by
  decide

theorem test_witness_RendezvousInEitherOrder :
    (∀ c, (finishing.chan c).pendAdc = true ∧ (finishing.chan c).blockCount = 0 ∧ (finishing.chan c).isDone = false) ∧
      finishing.txFlag = false := by
  refine ⟨fun c => ?_, rfl⟩
  cases c <;> decide

/-- The smallest and the largest window length, with the formula and with a table of offsets. -/
theorem test_witness_offsets :
    let d : Config := { Config.tc with offsetFn := .table [(3, 3), (2, 2), (3, 1), (0, 0)] }
    Config.tc.admissible ∧ d.admissible ∧ Config.tc.admitsLength 2 ∧ Config.tc.admitsLength 8 ∧ d.admitsLength 2 ∧
      d.admitsLength 8 ∧ Config.tc.offsetFn = .formula := by decide

theorem test_witness_CaptureIsChronological :
    tc.Inv ∧ tc.acqBusy = false ∧ tc.txFlag = false ∧ tc.cfg.admitsLength (2 : U16).toNat ∧
      tc.cfg.admitsLength (8 : U16).toNat := ⟨test_witness_reset_inv, by decide⟩

/-- A step from reset under the invariants: a tick. -/
theorem test_witness_steps :
    let s : State := { tc with moves := [.tick] }
    s.Inv ∧ s.Lockstep ∧ s.mem.wf ∧ s.mem.inBounds s.cfg ∧ (∃ t, step s = .next t) ∧ (∃ t, runMove .tick s = .next t) := by
  refine ⟨⟨test_tc_admissible.1, Memory.reset_wf _, ?_, ?_, ?_, ?_, ⟨rfl, nofun⟩, by decide⟩, ?_,
    (Memory.reset_wf Config.tc).1, (Memory.reset_wf Config.tc).2, ⟨{ tc with pendTick := true }, ?_⟩, ⟨_, rfl⟩⟩
  · exact tc_rxInv.congr rfl rfl rfl rfl rfl rfl rfl rfl rfl rfl
  · exact tc_replyInv.congr rfl rfl rfl
  · exact tc_txInv.congr rfl rfl rfl rfl rfl rfl rfl id
  · exact fun c => idle_chanInv (by cases c <;> rfl) rfl rfl
  · exact ⟨by decide, fun _ _ => ⟨⟨rfl, rfl, rfl, rfl⟩, rfl, rfl, rfl, rfl⟩⟩
  · rw [step_of_admissible test_tc_admissible.1]
    rfl

theorem test_witness_ListedPropertiesHold :
    (running.Inv ∧ running.Lockstep ∧ running.faults = []) ∧ finished.Inv ∧ finished.Lockstep ∧ finished.faults = [] :=
  ⟨⟨test_witness_running_inv.1, test_witness_running_inv.2.1, rfl⟩, test_witness_finished_inv.1,
    test_witness_finished_inv.2.1, rfl⟩

theorem test_witness_FinishedCaptureFillsTheRings :
    finished.Inv ∧ finished.ch0.isDone = true ∧ finished.ch1.isDone = true :=
  ⟨test_witness_finished_inv.1, rfl, rfl⟩

/-- A marked state and its step: the mark stays. -/
theorem test_witness_MarksAreSticky :
    let s : State := { tc with moves := [.tick], faults := [.window], refused := some .external }
    FaultName.window ∈ s.faults ∧ s.refused = some .external ∧ ∃ t, step s = .next t := by
  refine ⟨by decide, rfl, { tc with pendTick := true, faults := [.window], refused := some .external }, ?_⟩
  rw [step_of_admissible test_tc_admissible.1]
  rfl

/-- A move that sends a byte, and one that is no sample. -/
theorem test_witness_OnlyTheirMovesWriteOutputAndRings :
    (∃ t, runMove .txb sending = .next t) ∧ ∀ v0 v1, Event.txb ≠ .sample v0 v1 := ⟨⟨_, rfl⟩, nofun⟩

end Sys2Proof.Tests
end

/-! # Scope: one step of the machine (00_scope.md R20, R23) -/

namespace Sys2Proof.Machine

theorem step_of_not_admissible {s : State} (h : ¬ s.cfg.admissible) : step s = .refused .inadmissibleConfig :=
  if_neg h

theorem step_of_moves_cons {s : State} {e : Event} {rest : List Event} (ha : s.cfg.admissible)
    (hm : s.moves = e :: rest) : step s = runMove e { s with moves := rest } := by
  rw [step_of_admissible ha, chooseMove_cons hm]

theorem step_of_moves_nil {s : State} (ha : s.cfg.admissible) (hm : s.moves = []) :
    step s = runMove (Config.freeMove s.drawn) { s with drawn := s.drawn + 1 } := by
  rw [step_of_admissible ha, chooseMove_nil hm]

/-- Settles O1: one equation of `step` for each way the next move is chosen. -/
theorem stepMakesTheNextMove : Obligations.StepMakesTheNextMove := by
  intro s ha
  constructor
  · intro e rest hm
    exact step_of_moves_cons ha hm
  · intro hm
    exact step_of_moves_nil ha hm

/-- Settles O2: the admissibility check comes before the choice of a move. -/
theorem inadmissibleConfigRefused : Obligations.InadmissibleConfigRefused :=
  fun _ h => step_of_not_admissible h

end Sys2Proof.Machine

/-! # Slot arithmetic of an admissible configuration (R6, R232, R233, R239, R253) -/

namespace Sys2Proof.Machine

section slots

variable {c : Config}

/-- The number of blocks fits every width it is computed at (R15). -/
theorem nBlocks_bounds (h : c.admissible) : 2 ≤ c.nBlocks ∧ c.nBlocks < 16384 := by
  obtain ⟨⟨hN, -⟩, ⟨hS, -⟩, -, -, -, -, hR⟩ := h
  have : c.nBlocks * 2 ≤ c.nBlocks * c.nSamples := Nat.mul_le_mul_left _ hS
  simp only [Config.ringSize] at hR
  omega

/-- Masking a slot is taking it modulo `N_BLOCKS`, a power of two (R253). -/
theorem toNat_and_mask (h : c.admissible) (x : U32) : (x &&& c.mask).toNat = x.toNat % c.nBlocks := by
  have hb := nBlocks_bounds h
  obtain ⟨⟨-, hpow⟩, -⟩ := h
  rw [Config.mask, BitVec.toNat_and, BitVec.toNat_ofNat, Nat.mod_eq_of_lt (by omega), ← hpow,
    Nat.and_two_pow_sub_one_eq_mod]

theorem toNat_startSlot (h : c.admissible) (off : Nat) :
    (startSlot c off).toNat = (c.nBlocks - off) % c.nBlocks := by
  have hb := nBlocks_bounds h
  rw [startSlot, toNat_and_mask h, BitVec.toNat_ofNat, Nat.mod_eq_of_lt (b := 2 ^ 32) (by omega)]

theorem toNat_startCount (h : c.admissible) {off : Nat} (ho : off ≤ c.nBlocks - 1) :
    (startCount c off).toNat = c.nBlocks + off := by
  have hb := nBlocks_bounds h
  rw [startCount, BitVec.toNat_ofNat, Nat.mod_eq_of_lt (by omega)]

theorem toNat_nextSlot (h : c.admissible) {x : U32} (hx : x.toNat < c.nBlocks) :
    (nextSlot c x).toNat = (x.toNat + 1) % c.nBlocks := by
  have hb := nBlocks_bounds h
  rw [nextSlot, toNat_and_mask h, BitVec.toNat_add, Nat.mod_eq_of_lt (a := x.toNat + _) (by simp; omega)]
  rfl

/-- Every offset function an admissible configuration can have is in range at the admitted lengths (R14, R233). -/
theorem offsetOf_rowOk (h : c.admissible) {l : Nat} (hl : c.admitsLength l) : c.rowOk l (offsetOf c l) := by
  obtain ⟨⟨hN, -⟩, ⟨hS, -⟩, ⟨hwe, hw2, hw, hpre⟩, -, -, hoff, -⟩ := h
  obtain ⟨hl0, hle, hlw⟩ := hl
  have hring : (c.nBlocks - 1) * c.nSamples + c.nSamples = c.ringSize := by
    rw [← Nat.succ_mul, Nat.succ_eq_add_one, Nat.sub_add_cancel (by omega), Config.ringSize]
  have hlast : ∀ k, k < c.nSamples → k + l ≤ c.ringSize := by omega
  unfold offsetOf
  split
  · have hskip : offsetSkip c l < c.nBlocks * c.nSamples := by
      simp only [offsetSkip, Config.ringSize] at *
      omega
    have hdiv : offsetSkip c l / c.nSamples < c.nBlocks := (Nat.div_lt_iff_lt_mul (by omega)).2 hskip
    have hmod := Nat.mod_lt (offsetSkip c l) (show c.nSamples > 0 by omega)
    exact ⟨by omega, hmod, hlast _ hmod⟩
  · rename_i rows hrows
    simp only [hrows, OffsetFn.ok, Bool.and_eq_true, beq_iff_eq, List.all_eq_true] at hoff
    obtain ⟨hlen, hall⟩ := hoff
    have hi : l / 2 - 1 < rows.length := by omega
    have hrow := hall (rows[l / 2 - 1], l / 2 - 1) (by simp [List.mk_mem_zipIdx_iff_getElem?, hi])
    rw [show 2 * (l / 2 - 1 + 1) = l by omega] at hrow
    rw [List.getD_eq_getElem _ _ hi]
    exact of_decide_eq_true hrow

/-- The successor of a residue, without the division. -/
theorem succ_mod_eq {a n : Nat} (h : a < n) : (a + 1) % n = if a + 1 = n then 0 else a + 1 := by
  split
  · simp [*]
  · exact Nat.mod_eq_of_lt (by omega)

/-- The distance from one slot to another, without the division. -/
theorem slotDistance_eq {r : Channel} {x : Nat} (hx : x < c.nBlocks) :
    slotDistance c r x =
      if r.blockWrite.toNat ≤ x then x - r.blockWrite.toNat else x + c.nBlocks - r.blockWrite.toNat := by
  unfold slotDistance
  split
  · rw [show x + c.nBlocks - r.blockWrite.toNat = x - r.blockWrite.toNat + c.nBlocks by omega, Nat.add_mod_right,
      Nat.mod_eq_of_lt (by omega)]
  · exact Nat.mod_eq_of_lt (by omega)

/-- Moving on to the next slot brings every slot one nearer but the one left, which becomes the farthest. -/
theorem slotDistance_next {r r' : Channel} {x : Nat} (hr : r.blockWrite.toNat < c.nBlocks)
    (hr' : r'.blockWrite.toNat = (r.blockWrite.toNat + 1) % c.nBlocks) (hx : x < c.nBlocks)
    (hne : x ≠ r.blockWrite.toNat) : slotDistance c r x = slotDistance c r' x + 1 := by
  rw [succ_mod_eq hr] at hr'
  rw [slotDistance_eq hx, slotDistance_eq hx]
  split at hr' <;> split <;> split <;> omega

end slots

end Sys2Proof.Machine

/-! # What a move can answer: one lemma per hardware move, handler, main-loop step and command -/

namespace Sys2Proof.Machine

section answers

variable {s t : State}

theorem Flow.outcome_eq_next {x : Flow} : x.outcome = .next t ↔ x = .cont t ∨ x = .ends t := by
  cases x <;> simp

/-! ## Hardware moves -/

theorem hostSend_cases {b : Byte} (h : (hostSend b s).outcome = .next t) :
    (s.rxFifo.length < s.cfg.rxFifoDepth ∧ t = { s with rxFifo := s.rxFifo ++ [b] }) ∨
      t = s.raise .rxFifoOverflow := by
  unfold hostSend at h
  split at h
  · exact .inl ⟨‹_›, by cases h; rfl⟩
  · exact .inr (by cases h; rfl)

/-- The byte `b` taken from the queue into the next cell of `RXH` (R162). -/
def headerByteIn (b : Byte) (rest : List Byte) (s : State) : State :=
  { s with rxFifo := rest, mem := { s.mem with rxh := s.mem.rxh.write s.rxCount b }, rxCount := s.rxCount + 1 }

/-- The byte `b` taken from the queue into the next cell of `RXP` (R163). -/
def payloadByteIn (b : Byte) (rest : List Byte) (s : State) : State :=
  { s with rxFifo := rest, mem := { s.mem with rxp := s.mem.rxp.write s.rxCount b }, rxCount := s.rxCount + 1 }

theorem uartHeader_cases {b : Byte} {rest : List Byte}
    (h : (uartHeader b { s with rxFifo := rest }).outcome = .next t) :
    s.rxCount < 8 ∧ ((s.rxCount + 1 ≠ 8 ∧ t = headerByteIn b rest s) ∨
      (s.rxCount + 1 = 8 ∧ t = { headerByteIn b rest s with rxPhase := .headerDone, pendRx := true })) := by
  simp only [uartHeader] at h
  split at h
  · refine ⟨‹_›, ?_⟩
    split at h
    · exact .inr ⟨‹_›, by cases h; rfl⟩
    · exact .inl ⟨‹_›, by cases h; rfl⟩
  · cases h

theorem uartPayload_cases {b : Byte} {rest : List Byte}
    (h : (uartPayload b { s with rxFifo := rest }).outcome = .next t) :
    s.rxCount < s.cfg.rxPayloadMax ∧ ((s.rxCount + 1 ≠ s.rxTarget.toNat ∧ t = payloadByteIn b rest s) ∨
      (s.rxCount + 1 = s.rxTarget.toNat ∧
        t = { payloadByteIn b rest s with rxPhase := .payloadDone, pendRx := true })) := by
  simp only [uartPayload] at h
  split at h
  · refine ⟨‹_›, ?_⟩
    split at h
    · exact .inr ⟨‹_›, by cases h; rfl⟩
    · exact .inl ⟨‹_›, by cases h; rfl⟩
  · cases h

theorem uartMove_cases (h : (uartMove s).outcome = .next t) :
    t = s ∨ ∃ b rest, s.rxFifo = b :: rest ∧
      ((s.rxPhase = .header ∧ (uartHeader b { s with rxFifo := rest }).outcome = .next t) ∨
        (s.rxPhase = .payload ∧ (uartPayload b { s with rxFifo := rest }).outcome = .next t)) := by
  unfold uartMove at h
  split at h
  · exact .inl (by cases h; rfl)
  · rename_i b rest hq
    split at h
    · exact .inr ⟨b, rest, hq, .inl ⟨‹_›, h⟩⟩
    · exact .inr ⟨b, rest, hq, .inr ⟨‹_›, h⟩⟩
    all_goals exact .inl (by cases h; rfl)

/-- The byte `b` sent: it is the host's, and the last one of a transmit sets the pending bit (R173). -/
def byteSent (b : Byte) (s : State) : State :=
  { s with
    hostOut := s.hostOut ++ [b]
    txPos := s.txPos + 1
    pendTx := decide (s.txPos + 1 = s.txTotal) || s.pendTx }

theorem txMove_cases (h : (txMove s).outcome = .next t) :
    (txByteAt s s.txPos = .unwritten ∧ t = s.raise .unwritten) ∨ ∃ b, t = byteSent b s := by
  unfold txMove at h
  split at h
  · cases h
  · exact .inl ⟨‹_›, by cases h; rfl⟩
  · rename_i b _
    refine .inr ⟨b, ?_⟩
    simp only at h
    split at h <;> cases h <;> simp_all [byteSent, State.pend]

theorem sampleMove_cases {v0 v1 : U16} (h : (sampleMove v0 v1 s).outcome = .next t) :
    sampleIn .c0 v0 s = .ends t ∨ ∃ u, sampleIn .c0 v0 s = .cont u ∧ (sampleIn .c1 v1 u).outcome = .next t := by
  unfold sampleMove at h
  cases hx : sampleIn .c0 v0 s with
  | cont u => exact .inr ⟨u, rfl, by simpa [hx] using h⟩
  | ends u => exact .inl (by simpa [hx] using h)
  | stop f => simp [hx] at h

/-! ## Transmit start -/

/-- A transmit started (R172). -/
def txStarted (h : Header) (bulk : Bool) (plen : Nat) (s : State) : State :=
  { s with
    mem := { s.mem with txh := s.mem.txh.writeList 0 h.bytes }
    txBulk := bulk, txPos := 0, txTotal := 8 + plen, txFlag := true }

theorem startTx_outcome_cases {hd : Header} {bulk : Bool} {plen : Nat}
    (h : (startTx hd bulk plen s).outcome = .next t) :
    (s.txFlag = true ∧ t = s.raise .txOverlap) ∨ (s.txFlag = false ∧ t = txStarted hd bulk plen s) := by
  obtain ⟨hf, he⟩ | ⟨hf, he⟩ := startTx_cases hd bulk plen s
  · exact .inl ⟨hf, by rw [he] at h; cases h; rfl⟩
  · exact .inr ⟨hf, by rw [he] at h; cases h; rfl⟩

theorem sendReply_cases {hd : Header} (h : (sendReply hd s).outcome = .next t) :
    (s.txFlag = true ∧ t = s.raise .txOverlap) ∨
      (s.txFlag = false ∧ t = { txStarted hd false 0 s with mlReply := none, mlPhase := .rearm }) := by
  obtain ⟨hf, he⟩ | ⟨hf, he⟩ := startTx_cases hd false 0 s
  · exact .inl ⟨hf, by rw [sendReply, he] at h; cases h; rfl⟩
  · exact .inr ⟨hf, by rw [sendReply, he] at h; cases h; rfl⟩

/-! ## Interrupt handlers -/

theorem rxHandler_cases (h : rxHandler s = .next t) :
    (s.rxPhase = .headerDone ∧ s.readRxHeader = .unwritten ∧ t = s.raise .unwritten) ∨
      (∃ hd : Header, s.rxPhase = .headerDone ∧ s.readRxHeader = .value hd.bytes ∧ hd.b0 = s.cfg.label ∧
        t = acceptHeader ⟨hd.b0, hd.b1, hd.lengthField, hd.argTag⟩ s) ∨
      (s.rxPhase = .headerDone ∧ t = rearmRx s) ∨
      (s.rxPhase = .payloadDone ∧ t = { s with rxPhase := .off, rxFlag := true }) := by
  unfold rxHandler at h
  split at h
  · rename_i hp
    split at h
    · rename_i bytes hb
      split at h
      · rename_i hd hh
        obtain rfl := headerOfBytes_eq_some.1 hh
        by_cases hl : hd.b0 = s.cfg.label
        · rw [decodePacket_some hl] at h
          exact .inr (.inl ⟨hd, hp, hb, hl, by cases h; rfl⟩)
        · rw [decodePacket_none hl] at h
          exact .inr (.inr (.inl ⟨hp, by cases h; rfl⟩))
      · cases h
    · exact .inl ⟨hp, ‹_›, by cases h; rfl⟩
    · cases h
  · exact .inr (.inr (.inr ⟨‹_›, by cases h; rfl⟩))
  all_goals cases h

theorem tickHandler_cases (h : tickHandler s = .next t) :
    (s.rxPhase = .header ∧ t = rearmRx s) ∨ ∃ b, t = { s with rxStalled := b } := by
  unfold tickHandler at h
  split at h
  · rename_i hp
    split at h
    · have hph : s.rxPhase = .header := by simp_all [State.headerPartial]
      exact .inl ⟨hph, by cases h; rfl⟩
    · exact .inr ⟨true, by cases h; rfl⟩
  · exact .inr ⟨false, by cases h; rfl⟩

theorem adcHandler_cases {c : Chan} (h : adcHandler c s = .next t) :
    ((s.chan c).blockCount ≠ 0 ∧ t = rearmChannel c s) ∨
      ((s.chan c).blockCount = 0 ∧ (s.chan c.other).isDone = false ∧ t = markDone c s) ∨
      ((s.chan c).blockCount = 0 ∧ (s.chan c.other).isDone = true ∧ ∃ hd,
        (startTx hd true (4 * s.cfg.ringSize) (endAcquisition (markDone c s))).outcome = .next t) := by
  unfold adcHandler at h
  split at h
  · rename_i hz
    split at h
    · exact .inr (.inr ⟨hz, ‹_›, _, by simpa [handoff, exec, execReplyBulk] using h⟩)
    · rename_i hd
      exact .inr (.inl ⟨hz, by simpa using hd, by cases h; rfl⟩)
  · exact .inl ⟨‹_›, by cases h; rfl⟩

/-! ## Commands -/

/-- Everything the received commands do after M1 took the frame (R164, R201 to R208). -/
inductive CommandEffect (s : State) : State → Prop where
  | faulted (f : FaultName) (hf : f ≠ .unwritten) : CommandEffect s (s.raise f)
  | refused (r : RefusalName) : CommandEffect s (s.refuse r)
  | answered (r : Option Header)
      (hr : ∀ h, r = some h → h = livenessEcho s.cfg ∨ h = versionReply s.cfg) : CommandEffect s (setReply r s)
  | started (interval l : U16) (idle : s.acqBusy = false) (hl : s.cfg.admitsLength l.toNat) :
      CommandEffect s (setReply (some (runAck s.cfg)) (acquireStart interval l s))
  | rearmed : CommandEffect s (rearmRx s)

/-- A command that only checks its length and answers. -/
theorem CommandEffect.of_requireLen {payload : List Byte} {r : State → Header}
    (hr : payload.length = 0 → r s = livenessEcho s.cfg ∨ r s = versionReply s.cfg)
    (h : ((requireLen payload 0 s).andThen (fun u => .cont (setReply (some (r u)) u))).outcome = .next t) :
    CommandEffect s t := by
  obtain ⟨hl, he⟩ | ⟨hl, he⟩ := requireLen_cases payload 0 s <;> rw [he] at h <;> cases h
  · exact .answered _ (by rintro _ ⟨⟩; exact hr hl)
  · exact .faulted _ (by decide)

theorem execOscRun_effect {payload : List Byte} (h : execOscRun payload s = .next t) : CommandEffect s t := by
  unfold execOscRun at h
  split at h
  · cases h; exact .faulted _ (by decide)
  · rename_i o _
    obtain ⟨f, hf, he⟩ | ⟨hidle, -, hl, he⟩ := acquire_cases o.interval o.length s <;> rw [he] at h <;> cases h
    · exact .faulted f (by rintro rfl; simp at hf)
    · exact .started _ _ hidle hl

theorem exec_command_effect {i : Instr} (hi : i.direction = .hostToDevice) (h : exec i s = .next t) :
    CommandEffect s t := by
  cases i with
  | frameError label code length arg => cases h; exact .rearmed
  | liveness payload =>
    refine .of_requireLen (fun hl => .inl ?_) h
    obtain rfl := List.eq_nil_of_length_eq_zero hl
    rfl
  | version payload => exact .of_requireLen (fun _ => .inr rfl) h
  | oscRun payload => exact execOscRun_effect h
  | oscOther arg payload => cases h; exact .refused _
  | voltmeter arg payload => cases h; exact .refused _
  | external code arg payload => cases h; exact .refused _
  | kOther arg payload => cases h; exact .answered none nofun
  | verOther arg payload => cases h; exact .answered none nofun
  | unsupported code arg payload => cases h; exact .answered none nofun
  | replyLiveness | replyVersion | replyRunAck | replyBulk intra interval => cases hi

/-! ## Main-loop steps -/

theorem classify_direction (c : Config) (p : Packet) (payload : List Byte) :
    (classify c p payload).direction = .hostToDevice := by
  unfold classify
  split_ifs <;> rfl

/-- A received frame is never one of the block's own replies (R102). -/
theorem decode_direction {c : Config} {bytes rest : List Byte} {i : Instr}
    (h : decode c .hostToDevice bytes = .ok (i, rest)) : i.direction = .hostToDevice := by
  simp only [decode, decodeCommand] at h
  split at h
  · cases h
  · split at h
    · cases h; rfl
    · split at h
      · cases h
      · cases h; exact classify_direction _ _ _

theorem mainTake_cases (h : mainTake s = .next t) :
    (s.readRxHeader = .unwritten ∧ t = State.raise { s with rxFlag := false } .unwritten) ∨
      ∃ hd : Header, s.readRxHeader = .value hd.bytes ∧
        ((s.readRxPayload hd.lengthField.toNat = .unwritten ∧
            t = State.raise { s with rxFlag := false } .unwritten) ∨
          CommandEffect { s with rxFlag := false } t) := by
  unfold mainTake at h
  simp only at h
  split at h
  · rename_i bytes hb
    split at h
    · rename_i hd hh
      obtain rfl := headerOfBytes_eq_some.1 hh
      refine .inr ⟨hd, hb, ?_⟩
      split at h
      · rename_i p hp
        have hlen : p.length = hd.lengthField := by
          unfold decodePacket at hp
          split at hp <;> cases hp
          rfl
        split at h
        · split at h
          · exact .inr (exec_command_effect (decode_direction ‹_›) h)
          · cases h
        · rename_i hu
          exact .inl ⟨hlen ▸ hu, by cases h; rfl⟩
        · cases h
      · cases h
    · cases h
  · exact .inl ⟨‹_›, by cases h; rfl⟩
  · cases h

theorem classifyReply_eq_some {c : Config} {h : Header} {i : Instr} (hi : classifyReply c h = some i) :
    i.header c = h := by
  unfold classifyReply at hi
  split_ifs at hi with h1 h2 h3 h4 <;> cases hi <;> exact Eq.symm ‹_›

/-- M2 sends the waiting reply, whichever row its header is (R209). -/
theorem mainReply_some {hd : Header} (hr : s.mlReply = some hd) : mainReply s = (sendReply hd s).outcome := by
  unfold mainReply
  rw [hr]
  simp only
  split
  iterate 3 next hc => rw [← classifyReply_eq_some hc]; rfl
  · rfl

theorem mainReply_cases (h : mainReply s = .next t) :
    (s.mlReply = none ∧ t = { s with mlPhase := .rearm }) ∨
      ∃ hd, s.mlReply = some hd ∧ (sendReply hd s).outcome = .next t := by
  cases hr : s.mlReply with
  | none => exact .inl ⟨rfl, by simpa [mainReply, hr] using h.symm⟩
  | some hd => exact .inr ⟨hd, rfl, mainReply_some hr ▸ h⟩

end answers

end Sys2Proof.Machine

/-! # Marks, output and rings: what no step removes and what few moves write (R47, R48, R70) -/

namespace Sys2Proof.Machine

/-- The configuration is the same, and the marks of the first state are marks of the second (R48). -/
structure State.KeepsMarks (s t : State) : Prop where
  cfg : t.cfg = s.cfg
  faults : ∀ f ∈ s.faults, f ∈ t.faults
  refused : ∀ r, s.refused = some r → t.refused = some r

/-- Besides, neither `host_out` nor a ring is written (R47, R70). -/
structure State.Quiet (s t : State) : Prop extends s.KeepsMarks t where
  hostOut : t.hostOut = s.hostOut
  ring0 : t.mem.ring0 = s.mem.ring0
  ring1 : t.mem.ring1 = s.mem.ring1

section marks

variable {s t u : State}

theorem State.KeepsMarks.trans (h : s.KeepsMarks t) (k : t.KeepsMarks u) : s.KeepsMarks u where
  cfg := k.cfg.trans h.cfg
  faults := fun f hf => k.faults f (h.faults f hf)
  refused := fun r hr => k.refused r (h.refused r hr)

theorem State.KeepsMarks.of_eq (hc : t.cfg = s.cfg) (hf : t.faults = s.faults) (hr : t.refused = s.refused) :
    s.KeepsMarks t := ⟨hc, fun _ h => hf ▸ h, fun _ h => hr.trans h⟩

theorem State.Quiet.trans (h : s.Quiet t) (k : t.Quiet u) : s.Quiet u :=
  ⟨h.toKeepsMarks.trans k.toKeepsMarks, k.hostOut.trans h.hostOut, k.ring0.trans h.ring0, k.ring1.trans h.ring1⟩

/-- An update of other fields than the marks, `host_out` and the rings. -/
theorem State.Quiet.of_eq (hc : t.cfg = s.cfg) (hf : t.faults = s.faults) (hr : t.refused = s.refused)
    (ho : t.hostOut = s.hostOut) (h0 : t.mem.ring0 = s.mem.ring0) (h1 : t.mem.ring1 = s.mem.ring1) : s.Quiet t :=
  ⟨.of_eq hc hf hr, ho, h0, h1⟩

theorem State.Quiet.ring (h : s.Quiet t) (c : Chan) : t.mem.ring c = s.mem.ring c := by
  cases c
  · exact h.ring0
  · exact h.ring1

theorem State.raise_quiet (s : State) (f : FaultName) : s.Quiet (s.raise f) :=
  ⟨⟨rfl, fun _ hg => State.mem_raise.2 (.inr hg), fun _ h => h⟩, rfl, rfl, rfl⟩

theorem State.refuse_quiet (s : State) (r : RefusalName) : s.Quiet (s.refuse r) :=
  ⟨⟨rfl, fun _ h => h, fun _ h => by simp [h]⟩, rfl, rfl, rfl⟩

theorem State.clearPend_quiet (s : State) (x : IntSource) : s.Quiet (s.clearPend x) := by
  apply State.Quiet.of_eq <;> simp

/-! ## Every move but the transmit byte and the sample tick is quiet -/

theorem hostSend_quiet {b : Byte} (h : (hostSend b s).outcome = .next t) : s.Quiet t := by
  obtain ⟨-, rfl⟩ | rfl := hostSend_cases h
  · exact .of_eq rfl rfl rfl rfl rfl rfl
  · exact s.raise_quiet _

theorem uartMove_quiet (h : (uartMove s).outcome = .next t) : s.Quiet t := by
  obtain rfl | ⟨b, rest, -, ⟨-, h⟩ | ⟨-, h⟩⟩ := uartMove_cases h
  · exact .of_eq rfl rfl rfl rfl rfl rfl
  · obtain ⟨-, ⟨-, rfl⟩ | ⟨-, rfl⟩⟩ := uartHeader_cases h <;> exact .of_eq rfl rfl rfl rfl rfl rfl
  · obtain ⟨-, ⟨-, rfl⟩ | ⟨-, rfl⟩⟩ := uartPayload_cases h <;> exact .of_eq rfl rfl rfl rfl rfl rfl

theorem acceptHeader_quiet (p : Packet) (s : State) : s.Quiet (acceptHeader p s) := by
  obtain ⟨-, he⟩ | ⟨-, -, he⟩ | ⟨-, -, he⟩ := acceptHeader_cases p s <;> rw [he]
  · exact .of_eq rfl rfl rfl rfl rfl rfl
  · exact s.raise_quiet _
  · exact .of_eq rfl rfl rfl rfl rfl rfl

theorem rxHandler_quiet (h : rxHandler s = .next t) : s.Quiet t := by
  obtain ⟨-, -, rfl⟩ | ⟨hd, -, -, -, rfl⟩ | ⟨-, rfl⟩ | ⟨-, rfl⟩ := rxHandler_cases h
  · exact s.raise_quiet _
  · exact acceptHeader_quiet _ s
  · exact .of_eq rfl rfl rfl rfl rfl rfl
  · exact .of_eq rfl rfl rfl rfl rfl rfl

theorem startTx_quiet {hd : Header} {bulk : Bool} {plen : Nat} (h : (startTx hd bulk plen s).outcome = .next t) :
    s.Quiet t := by
  obtain ⟨-, rfl⟩ | ⟨-, rfl⟩ := startTx_outcome_cases h
  · exact s.raise_quiet _
  · exact .of_eq rfl rfl rfl rfl rfl rfl

theorem adcHandler_quiet {c : Chan} (h : adcHandler c s = .next t) : s.Quiet t := by
  obtain ⟨-, rfl⟩ | ⟨-, -, rfl⟩ | ⟨-, -, hd, h⟩ := adcHandler_cases h
  · apply State.Quiet.of_eq <;> simp
  · apply State.Quiet.of_eq <;> simp
  · refine State.Quiet.trans ?_ (startTx_quiet h)
    apply State.Quiet.of_eq <;> simp

theorem tickHandler_quiet (h : tickHandler s = .next t) : s.Quiet t := by
  obtain ⟨-, rfl⟩ | ⟨b, rfl⟩ := tickHandler_cases h <;> exact .of_eq rfl rfl rfl rfl rfl rfl

theorem runHandler_quiet {x : IntSource} (h : runHandler x s = .next t) : s.Quiet t := by
  rw [runHandler, returned_eq, enterHandler] at h
  refine (s.clearPend_quiet x).trans ?_
  cases x with
  | rx => exact rxHandler_quiet h
  | tx => cases h; exact .of_eq rfl rfl rfl rfl rfl rfl
  | adc c => exact adcHandler_quiet h
  | tick => exact tickHandler_quiet h

theorem CommandEffect.quiet (h : CommandEffect s t) : s.Quiet t := by
  cases h with
  | faulted f => exact s.raise_quiet f
  | refused r => exact s.refuse_quiet r
  | answered | started | rearmed => exact .of_eq rfl rfl rfl rfl rfl rfl

theorem mainTake_quiet (h : mainTake s = .next t) : s.Quiet t := by
  have hflag : s.Quiet { s with rxFlag := false } := .of_eq rfl rfl rfl rfl rfl rfl
  refine hflag.trans ?_
  obtain ⟨-, rfl⟩ | ⟨hd, -, ⟨-, rfl⟩ | h⟩ := mainTake_cases h
  · exact State.raise_quiet _ _
  · exact State.raise_quiet _ _
  · exact h.quiet

theorem mainReply_quiet (h : mainReply s = .next t) : s.Quiet t := by
  obtain ⟨-, rfl⟩ | ⟨hd, -, h⟩ := mainReply_cases h
  · exact .of_eq rfl rfl rfl rfl rfl rfl
  · obtain ⟨-, rfl⟩ | ⟨-, rfl⟩ := sendReply_cases h
    · exact s.raise_quiet _
    · exact .of_eq rfl rfl rfl rfl rfl rfl

theorem mainStep_quiet (h : mainStep s = .next t) : s.Quiet t := by
  unfold mainStep at h
  split at h
  · exact mainTake_quiet h
  · exact mainReply_quiet h
  · cases h; exact .of_eq rfl rfl rfl rfl rfl rfl

/-! ## The transmit byte and the sample tick -/

theorem txMove_keepsMarks (h : (txMove s).outcome = .next t) : s.KeepsMarks t := by
  obtain ⟨-, rfl⟩ | ⟨b, rfl⟩ := txMove_cases h
  · exact (s.raise_quiet _).toKeepsMarks
  · exact .of_eq rfl rfl rfl

/-- A transmit move sends one byte or marks an unwritten cell; no ring is written (R173). -/
theorem txMove_output (h : (txMove s).outcome = .next t) :
    (t.hostOut = s.hostOut ∨ ∃ b, t.hostOut = s.hostOut ++ [b]) ∧ t.mem = s.mem := by
  obtain ⟨-, rfl⟩ | ⟨b, rfl⟩ := txMove_cases h
  · exact ⟨.inl rfl, rfl⟩
  · exact ⟨.inr ⟨b, rfl⟩, rfl⟩

/-- A sample keeps the marks and sends nothing (R237, R238). -/
theorem sampleIn_keeps {c : Chan} {v : U16} (h : (sampleIn c v s).outcome = .next t) :
    s.KeepsMarks t ∧ t.hostOut = s.hostOut := by
  obtain ⟨-, -, -, he⟩ | ⟨-, -, -, he⟩ | ⟨-, -, he⟩ | ⟨-, -, he⟩ | ⟨-, -, he⟩ :=
    sampleIn_cases c v s <;> rw [he] at h <;> cases h
  · exact ⟨by apply State.KeepsMarks.of_eq <;> simp, by simp⟩
  · exact ⟨by apply State.KeepsMarks.of_eq <;> simp, by simp⟩
  · exact ⟨(s.raise_quiet _).toKeepsMarks, rfl⟩
  · exact ⟨.of_eq rfl rfl rfl, rfl⟩

theorem sampleMove_keeps {v0 v1 : U16} (h : (sampleMove v0 v1 s).outcome = .next t) :
    s.KeepsMarks t ∧ t.hostOut = s.hostOut := by
  obtain h | ⟨u, h0, h1⟩ := sampleMove_cases h
  · exact sampleIn_keeps (Flow.outcome_eq_next.2 (.inr h))
  · obtain ⟨hm0, ho0⟩ := sampleIn_keeps (Flow.outcome_eq_next.2 (.inl h0))
    obtain ⟨hm1, ho1⟩ := sampleIn_keeps h1
    exact ⟨hm0.trans hm1, ho1.trans ho0⟩

/-! ## The two whole-machine rules -/

/-- A move is quiet, the transmit move, or a sample tick. -/
theorem runMove_quiet_or {e : Event} (h : runMove e s = .next t) :
    s.Quiet t ∨ (e = .txb ∧ (txMove s).outcome = .next t) ∨
      ∃ v0 v1, e = .sample v0 v1 ∧ (sampleMove v0 v1 s).outcome = .next t := by
  obtain ⟨-, he⟩ | ⟨-, he⟩ := runMove_cases e s <;> rw [he] at h
  · cases e with
    | send b => exact .inl (hostSend_quiet h)
    | uart => exact .inl (uartMove_quiet h)
    | txb => exact .inr (.inl ⟨rfl, h⟩)
    | tick => cases h; exact .inl (.of_eq rfl rfl rfl rfl rfl rfl)
    | sample v0 v1 => exact .inr (.inr ⟨v0, v1, rfl, h⟩)
    | isr x => exact .inl (runHandler_quiet h)
    | ml => exact .inl (mainStep_quiet h)
  · cases h; exact .inl (.of_eq rfl rfl rfl rfl rfl rfl)

theorem runMove_keepsMarks {e : Event} (h : runMove e s = .next t) : s.KeepsMarks t := by
  obtain h | ⟨-, h⟩ | ⟨v0, v1, -, h⟩ := runMove_quiet_or h
  · exact h.toKeepsMarks
  · exact txMove_keepsMarks h
  · exact (sampleMove_keeps h).1

/-- A step is one move, made after its choice was used up (R20, log 3). -/
theorem step_eq_next (h : step s = .next t) :
    s.cfg.admissible ∧
      ∃ (e : Event) (m : List Event) (d : Nat), runMove e { s with moves := m, drawn := d } = .next t := by
  by_cases ha : s.cfg.admissible
  · refine ⟨ha, ?_⟩
    cases hm : s.moves with
    | nil => exact ⟨_, s.moves, _, step_of_moves_nil ha hm ▸ h⟩
    | cons e rest => exact ⟨e, rest, s.drawn, step_of_moves_cons ha hm ▸ h⟩
  · rw [step_of_not_admissible ha] at h
    cases h

/-- Settles O59: each move keeps the marks and the configuration, and the choice of a move touches neither. -/
theorem marksAreSticky : Obligations.MarksAreSticky := by
  intro s t h
  obtain ⟨-, e, m, d, hmove⟩ := step_eq_next h
  obtain ⟨hc, hf, hr⟩ := runMove_keepsMarks hmove
  exact ⟨hc, hf, hr⟩

/-- Settles O60: a quiet move writes neither; the transmit move appends and writes no memory; the sample tick sends
nothing. -/
theorem onlyTheirMovesWriteOutputAndRings : Obligations.OnlyTheirMovesWriteOutputAndRings := by
  intro e s t h
  obtain hq | ⟨rfl, htx⟩ | ⟨v0, v1, rfl, hsample⟩ := runMove_quiet_or h
  · exact ⟨.inl hq.hostOut, fun _ c a => by rw [hq.ring c]⟩
  · obtain ⟨ho, hm⟩ := txMove_output htx
    exact ⟨ho.imp_right (⟨rfl, ·⟩), fun _ c a => by rw [hm]⟩
  · exact ⟨.inl (sampleMove_keeps hsample).2, fun hne => absurd rfl (hne v0 v1)⟩

end marks

end Sys2Proof.Machine

/-! # Reset and the listed properties (R51, R55) -/

namespace Sys2Proof.Machine

/-- Settles O51: the fields of `State.resetWith` one by one, then the cells, all unwritten. -/
theorem resetTable : Obligations.ResetTable := by
  intro c
  have hchan : ∀ d, (State.resetWith c).chan d = ⟨false, 0, 0, false, 0, false⟩ := by intro d; cases d <;> rfl
  have hpend : ∀ x, (State.resetWith c).pending x = false := by rintro (_ | _ | (_ | _) | _) <;> rfl
  have hring : ∀ d a, ((State.resetWith c).mem.ring d).read a = none := by intro d a; cases d <;> rfl
  exact ⟨rfl, rfl, rfl, rfl, rfl, rfl, rfl, rfl, rfl, rfl, rfl, hchan, rfl, rfl, rfl, rfl, rfl, rfl, rfl, hpend, rfl,
    rfl, rfl, rfl, rfl, hring, fun _ => rfl, fun _ => rfl, fun _ => rfl, rfl⟩

theorem resetWith_chan (c : Config) (d : Chan) : (State.resetWith c).chan d = Channel.reset := by cases d <;> rfl

theorem resetWith_rxInv (c : Config) : (State.resetWith c).RxInv where
  fifo := Nat.zero_le _
  inHeader := fun _ => ⟨Nat.zero_le _, Mem.writtenBelow_zero _⟩
  inHeaderDone := nofun
  inPayload := nofun
  inPayloadDone := nofun
  pendingDone := nofun
  flagOff := nofun
  frameHeld := nofun
  mainOff := fun h => absurd rfl h

theorem resetWith_chanInv {c : Config} (h : c.admissible) (d : Chan) : (State.resetWith c).ChanInv d := by
  obtain ⟨⟨hN, -⟩, ⟨hS, -⟩, -⟩ := h
  have hcfg : (State.resetWith c).cfg = c := rfl
  have hbusy : (State.resetWith c).acqBusy = false := rfl
  constructor <;> simp [resetWith_chan, hcfg, hbusy, Channel.reset]
  all_goals omega

theorem resetWith_inv {c : Config} (h : c.admissible) : (State.resetWith c).Inv where
  config := h
  memory := Memory.reset_wf c
  receive := resetWith_rxInv c
  reply := ⟨fun _ => rfl, nofun⟩
  transmit := ⟨nofun, nofun⟩
  channel := resetWith_chanInv h
  acquisition := ⟨rfl, nofun⟩
  neverUnwritten := by simp [State.resetWith]

theorem resetWith_lockstep (c : Config) : (State.resetWith c).Lockstep where
  running := nofun
  resting := fun _ _ => ⟨⟨rfl, rfl, rfl, rfl⟩, rfl, rfl, rfl, rfl⟩

/-- The configuration of `State.reset` is admissible (log 1). -/
theorem base_admissible : Config.base.admissible := by decide

/-- Settles O52: nothing is received, sent or captured at reset, so each part holds by its idle case. -/
theorem invariantsAtReset : Obligations.InvariantsAtReset :=
  ⟨fun c h => ⟨resetWith_inv h, resetWith_lockstep c⟩, resetWith_inv base_admissible, resetWith_lockstep _⟩

/-- R55.6: in both half-way cases of the lockstep a handler is pending, so otherwise the channels agree. -/
theorem State.Lockstep.aligned {s : State} (h : s.Lockstep) (hf : s.faults = []) (hb : s.acqBusy = true) :
    s.Aligned := by
  intro h0 h1
  obtain ⟨hsame, -⟩ | ⟨hp, -⟩ | ⟨hp, -⟩ := h.running hf hb
  · exact hsame
  · rw [h1] at hp; cases hp
  · rw [h0] at hp; cases hp

/-- Settles O57: each property is a part of the invariant, the last one of lockstep. -/
theorem listedPropertiesHold : Obligations.ListedPropertiesHold := by
  intro s hi hl hf
  refine ⟨fun c => (hi.channel c).slotInRange, fun hr => (hi.receive.flagOff hr).1, fun c ha => ?_, fun h0 h1 => ?_,
    fun hb _ _ => hl.aligned hf hb⟩
  · obtain ⟨hbusy, hdone, -⟩ := (hi.channel c).armedBusy ha
    exact ⟨hbusy, hdone⟩
  · have hbusy := hi.acquisition.bothDone h0 h1
    exact ⟨hbusy, hi.acquisition.timerBusy.trans hbusy⟩

end Sys2Proof.Machine

/-! # The machine's invariant is kept by every step (R55, R90, R91, R244, R245)

Every move changes the fields of one side only: reception and the main loop, the transmit, or the capture. A move's
proof shows the parts of the invariant that speak of its side; the others carry over. -/

namespace Sys2Proof.Machine

section sides

variable {s t : State}

/-- `t` differs from `s` at most in the fields no part of the invariant reads, and in its marks. -/
def State.onlyFree (s t : State) : Prop :=
  t = { s with
    rxStalled := t.rxStalled, pendTick := t.pendTick, hostOut := t.hostOut, faults := t.faults
    refused := t.refused, moves := t.moves, drawn := t.drawn }

/-- `t` differs from `s` at most in the receive fields, the main loop's fields and the receive buffers. -/
def State.onlyReceive (s t : State) : Prop :=
  t = { s with
    rxFlag := t.rxFlag, rxStalled := t.rxStalled, rxPhase := t.rxPhase, rxCount := t.rxCount
    rxTarget := t.rxTarget, rxFifo := t.rxFifo, pendRx := t.pendRx, mlPhase := t.mlPhase, mlReply := t.mlReply
    mem := { s.mem with rxh := t.mem.rxh, rxp := t.mem.rxp } }

/-- `t` differs from `s` at most in the transmit fields, the bytes sent and `TXH`. -/
def State.onlyTransmit (s t : State) : Prop :=
  t = { s with
    txFlag := t.txFlag, txPos := t.txPos, txTotal := t.txTotal, txBulk := t.txBulk, pendTx := t.pendTx
    hostOut := t.hostOut, mem := { s.mem with txh := t.mem.txh } }

/-- `t` differs from `s` at most in the channel records, the acquisition record, the timer and the rings. -/
def State.onlyCapture (s t : State) : Prop :=
  t = { s with
    ch0 := t.ch0, ch1 := t.ch1, acqBusy := t.acqBusy, acqInterval := t.acqInterval, acqLength := t.acqLength
    acqOffsetBlocks := t.acqOffsetBlocks, acqIntra := t.acqIntra, timerRunning := t.timerRunning
    timerInterval := t.timerInterval, mem := { s.mem with ring0 := t.mem.ring0, ring1 := t.mem.ring1 } }

/-! Each lemma below gives the fields that may differ a name, so that `t` is `s` with those fields replaced. -/

theorem State.Inv.of_onlyFree (h : s.Inv) (ht : s.onlyFree t) (hu : FaultName.unwritten ∉ t.faults) : t.Inv := by
  rw [State.onlyFree] at ht
  generalize t.rxStalled = a1, t.pendTick = a2, t.hostOut = a3, t.refused = a5, t.moves = a6, t.drawn = a7 at ht
  generalize t.faults = fs at ht hu
  subst ht
  exact ⟨h.config, h.memory, h.receive.congr rfl rfl rfl rfl rfl rfl rfl rfl rfl rfl, h.reply.congr rfl rfl rfl,
    h.transmit.congr rfl rfl rfl rfl rfl rfl rfl id, fun c => (h.channel c).congr rfl rfl rfl fun _ => id,
    h.acquisition.congr rfl rfl rfl rfl, hu⟩

theorem State.Inv.of_onlyReceive (h : s.Inv) (ht : s.onlyReceive t) (hm : t.mem.wf ∧ t.mem.inBounds s.cfg)
    (hr : t.RxInv) (hp : t.ReplyInv) : t.Inv := by
  rw [State.onlyReceive] at ht
  generalize t.rxFlag = a1, t.rxStalled = a2, t.rxPhase = a3, t.rxCount = a4, t.rxTarget = a5, t.rxFifo = a6,
    t.pendRx = a7, t.mlPhase = a8, t.mlReply = a9, t.mem.rxh = m1, t.mem.rxp = m2 at ht
  subst ht
  exact ⟨h.config, hm, hr, hp, h.transmit.congr rfl rfl rfl rfl rfl rfl rfl id,
    fun c => (h.channel c).congr rfl rfl rfl (by cases c <;> exact fun _ => id),
    h.acquisition.congr rfl rfl rfl rfl, h.neverUnwritten⟩

theorem State.Inv.of_onlyTransmit (h : s.Inv) (ht : s.onlyTransmit t) (hm : t.mem.wf ∧ t.mem.inBounds s.cfg)
    (hx : t.TxInv) : t.Inv := by
  rw [State.onlyTransmit] at ht
  generalize t.txFlag = a1, t.txPos = a2, t.txTotal = a3, t.txBulk = a4, t.pendTx = a5, t.hostOut = a6,
    t.mem.txh = m1 at ht
  subst ht
  exact ⟨h.config, hm, h.receive.congr rfl rfl rfl rfl rfl rfl rfl rfl rfl rfl, h.reply.congr rfl rfl rfl, hx,
    fun c => (h.channel c).congr rfl rfl rfl (by cases c <;> exact fun _ => id),
    h.acquisition.congr rfl rfl rfl rfl, h.neverUnwritten⟩

theorem State.ringsWritten_of_ring (hw : ∀ c a, (s.mem.ring c).written a → (t.mem.ring c).written a)
    (hc : t.cfg = s.cfg) (h : s.ringsWritten) : t.ringsWritten := by
  obtain ⟨h0, h1⟩ := h
  unfold State.ringsWritten
  rw [hc]
  exact ⟨fun a ha => hw .c0 a (h0 a ha), fun a ha => hw .c1 a (h1 a ha)⟩

theorem State.Inv.of_onlyCapture (h : s.Inv) (ht : s.onlyCapture t) (hm : t.mem.wf ∧ t.mem.inBounds s.cfg)
    (hw : ∀ c a, (s.mem.ring c).written a → (t.mem.ring c).written a) (hc : ∀ c, t.ChanInv c) (ha : t.AcqInv) :
    t.Inv := by
  rw [State.onlyCapture] at ht
  generalize t.ch0 = a1, t.ch1 = a2, t.acqBusy = a3, t.acqInterval = a4, t.acqLength = a5, t.acqOffsetBlocks = a6,
    t.acqIntra = a7, t.timerRunning = a8, t.timerInterval = a9, t.mem.ring0 = m1, t.mem.ring1 = m2 at ht
  subst ht
  exact ⟨h.config, hm, h.receive.congr rfl rfl rfl rfl rfl rfl rfl rfl rfl rfl, h.reply.congr rfl rfl rfl,
    h.transmit.congr rfl rfl rfl rfl rfl rfl rfl (State.ringsWritten_of_ring hw rfl), hc, ha, h.neverUnwritten⟩

theorem State.Inv.raise (h : s.Inv) {f : FaultName} (hf : f ≠ .unwritten) : (s.raise f).Inv :=
  h.of_onlyFree rfl (by simp [hf.symm, h.neverUnwritten])

end sides

/-! ## Reception and the main loop -/

section reception

variable {s t : State}

theorem State.RxInv.of_header (hq : s.rxFifo.length ≤ s.cfg.rxFifoDepth) (hp : s.rxPhase = .header)
    (hn : s.rxCount ≤ 7) (hw : s.mem.rxh.writtenBelow s.rxCount) (hpend : s.pendRx = false) (hf : s.rxFlag = false)
    (hl : s.mlPhase = .idle) : s.RxInv := by
  constructor <;> simp [*]

theorem State.RxInv.of_headerDone (hq : s.rxFifo.length ≤ s.cfg.rxFifoDepth) (hp : s.rxPhase = .headerDone)
    (hn : s.rxCount = 8) (hw : s.mem.rxh.writtenBelow 8) (hf : s.rxFlag = false) (hl : s.mlPhase = .idle) :
    s.RxInv := by
  constructor <;> simp [*]

theorem State.RxInv.of_payload (hq : s.rxFifo.length ≤ s.cfg.rxFifoDepth) (hp : s.rxPhase = .payload)
    (hn : s.rxCount < s.rxTarget.toNat) (ht : s.rxTarget.toNat ≤ s.cfg.rxPayloadMax)
    (hh : s.headerHeld s.rxTarget.toNat) (hw : s.mem.rxp.writtenBelow s.rxCount) (hpend : s.pendRx = false)
    (hf : s.rxFlag = false) (hl : s.mlPhase = .idle) : s.RxInv := by
  constructor <;> simp [*]

theorem State.RxInv.of_payloadDone (hq : s.rxFifo.length ≤ s.cfg.rxFifoDepth) (hp : s.rxPhase = .payloadDone)
    (hn : s.rxCount = s.rxTarget.toNat) (h1 : 1 ≤ s.rxTarget.toNat) (ht : s.rxTarget.toNat ≤ s.cfg.rxPayloadMax)
    (hh : s.headerHeld s.rxTarget.toNat) (hw : s.mem.rxp.writtenBelow s.rxCount)
    (hf : s.rxFlag = false) (hl : s.mlPhase = .idle) : s.RxInv := by
  rw [hn] at hw
  constructor <;> simp [*]

theorem State.RxInv.of_off (hq : s.rxFifo.length ≤ s.cfg.rxFifoDepth) (hp : s.rxPhase = .off)
    (hpend : s.pendRx = false) (hframe : s.rxFlag = true → s.mlPhase = .idle ∧
      ∃ n, n ≤ s.cfg.rxPayloadMax ∧ s.headerHeld n ∧ s.mem.rxp.writtenBelow n) : s.RxInv := by
  constructor <;> simp_all

/-- While a frame is being received none waits, and the main loop is idle (R46, R167). -/
theorem State.RxInv.idle_of_phase (h : s.RxInv) (hp : s.rxPhase ≠ .off) : s.rxFlag = false ∧ s.mlPhase = .idle := by
  exact ⟨Bool.eq_false_iff.2 fun hf => hp (h.flagOff hf).1, Classical.byContradiction fun hl => hp (h.mainOff hl)⟩

theorem State.RxInv.pendRx_of_phase (h : s.RxInv) (h1 : s.rxPhase ≠ .headerDone) (h2 : s.rxPhase ≠ .payloadDone) :
    s.pendRx = false :=
  Bool.eq_false_iff.2 fun hp => (h.pendingDone hp).elim h1 h2

/-- While the main loop is at a reply or at the re-arm, no frame waits (R167). -/
theorem State.RxInv.rxFlag_of_mlPhase (h : s.RxInv) (hl : s.mlPhase ≠ .idle) : s.rxFlag = false :=
  Bool.eq_false_iff.2 fun hf => hl (h.flagOff hf).2

/-- With reception off no receive handler is pending. -/
theorem State.RxInv.pendRx_of_off (h : s.RxInv) (hp : s.rxPhase = .off) : s.pendRx = false :=
  h.pendRx_of_phase (by simp [hp]) (by simp [hp])

theorem hostSend_inv {b : Byte} (h : s.Inv) (hx : (hostSend b s).outcome = .next t) : t.Inv := by
  obtain ⟨hlen, rfl⟩ | rfl := hostSend_cases hx
  · refine h.of_onlyReceive rfl h.memory ?_ (h.reply.congr rfl rfl rfl)
    exact { h.receive with fifo := by simpa using hlen }
  · exact h.raise (by decide)

theorem uartHeader_inv {b : Byte} {rest : List Byte} (h : s.Inv) (hq : s.rxFifo = b :: rest)
    (hp : s.rxPhase = .header) (hx : (uartHeader b { s with rxFifo := rest }).outcome = .next t) : t.Inv := by
  have hr := h.receive
  obtain ⟨hflag, hidle⟩ := hr.idle_of_phase (by simp [hp])
  have hpend := hr.pendRx_of_phase (by simp [hp]) (by simp [hp])
  have hfifo : rest.length ≤ s.cfg.rxFifoDepth := by have := hr.fifo; simp [hq] at this; omega
  obtain ⟨hcount, hw⟩ := hr.inHeader hp
  have hw' := Mem.writtenBelow_succ b hw
  obtain ⟨hlt, ⟨hne, rfl⟩ | ⟨he, rfl⟩⟩ := uartHeader_cases hx
  · exact h.of_onlyReceive rfl (Memory.rxh_write_form b hlt h.memory.1 h.memory.2)
      (.of_header hfifo hp (show s.rxCount + 1 ≤ 7 by omega) hw' hpend hflag hidle) (h.reply.congr rfl rfl rfl)
  · exact h.of_onlyReceive rfl (Memory.rxh_write_form b hlt h.memory.1 h.memory.2)
      (.of_headerDone hfifo rfl he (Mem.writtenBelow_mono hw' (by omega)) hflag hidle) (h.reply.congr rfl rfl rfl)

theorem uartPayload_inv {b : Byte} {rest : List Byte} (h : s.Inv) (hq : s.rxFifo = b :: rest)
    (hp : s.rxPhase = .payload) (hx : (uartPayload b { s with rxFifo := rest }).outcome = .next t) : t.Inv := by
  have hr := h.receive
  obtain ⟨hflag, hidle⟩ := hr.idle_of_phase (by simp [hp])
  have hpend := hr.pendRx_of_phase (by simp [hp]) (by simp [hp])
  have hfifo : rest.length ≤ s.cfg.rxFifoDepth := by have := hr.fifo; simp [hq] at this; omega
  obtain ⟨hcount, hmax, hheld, hw⟩ := hr.inPayload hp
  have hw' := Mem.writtenBelow_succ b hw
  obtain ⟨hlt, ⟨hne, rfl⟩ | ⟨he, rfl⟩⟩ := uartPayload_cases hx
  · exact h.of_onlyReceive rfl (Memory.rxp_write_form b hlt h.memory.1 h.memory.2)
      (.of_payload hfifo hp (show s.rxCount + 1 < s.rxTarget.toNat by omega) hmax hheld hw' hpend hflag hidle)
      (h.reply.congr rfl rfl rfl)
  · exact h.of_onlyReceive rfl (Memory.rxp_write_form b hlt h.memory.1 h.memory.2)
      (.of_payloadDone hfifo rfl he (show 1 ≤ s.rxTarget.toNat by omega) hmax hheld hw' hflag hidle)
      (h.reply.congr rfl rfl rfl)

theorem uartMove_inv (h : s.Inv) (hx : (uartMove s).outcome = .next t) : t.Inv := by
  obtain rfl | ⟨b, rest, hq, ⟨hp, hx⟩ | ⟨hp, hx⟩⟩ := uartMove_cases hx
  · exact h
  · exact uartHeader_inv h hq hp hx
  · exact uartPayload_inv h hq hp hx

/-- Re-arming reception, from any phase with an idle main loop and no waiting frame (R166). -/
theorem rearmRx_inv (h : s.Inv) (hpend : s.pendRx = false) (hf : s.rxFlag = false) (hl : s.mlPhase = .idle) :
    (rearmRx s).Inv :=
  h.of_onlyReceive rfl h.memory (.of_header h.receive.fifo rfl (Nat.zero_le 7) (Mem.writtenBelow_zero _) hpend hf hl)
    (h.reply.congr rfl rfl rfl)

/-- The frame that has arrived is complete: reception is off and the frame waits (R164, R165). -/
theorem frameDelivered_inv {stalled : Bool} (h : s.Inv) (hpend : s.pendRx = false) (hl : s.mlPhase = .idle)
    (hframe : ∃ n, n ≤ s.cfg.rxPayloadMax ∧ s.headerHeld n ∧ s.mem.rxp.writtenBelow n) :
    State.Inv { s with rxPhase := .off, rxFlag := true, rxStalled := stalled } :=
  h.of_onlyReceive rfl h.memory (.of_off h.receive.fifo rfl hpend fun _ => ⟨hl, hframe⟩) (h.reply.congr rfl rfl rfl)

theorem acceptHeader_inv {hd : Header} (h : s.Inv) (hpend : s.pendRx = false) (hp : s.rxPhase = .headerDone)
    (hread : s.readRxHeader = .value hd.bytes) (hlabel : hd.b0 = s.cfg.label) :
    (acceptHeader ⟨hd.b0, hd.b1, hd.lengthField, hd.argTag⟩ s).Inv := by
  obtain ⟨hflag, hidle⟩ := h.receive.idle_of_phase (by simp [hp])
  have hheld : s.headerHeld hd.lengthField.toNat := ⟨hd, hread, hlabel, rfl⟩
  obtain ⟨hz, he⟩ | ⟨-, -, he⟩ | ⟨hnz, hmax, he⟩ :=
    acceptHeader_cases ⟨hd.b0, hd.b1, hd.lengthField, hd.argTag⟩ s <;> rw [he]
  · have hz : hd.lengthField.toNat = 0 := congrArg BitVec.toNat hz
    exact frameDelivered_inv h hpend hidle ⟨_, by omega, hheld, hz ▸ Mem.writtenBelow_zero _⟩
  · exact h.raise (by decide)
  · have hpos : 0 < hd.lengthField.toNat := Nat.pos_of_ne_zero fun h0 => hnz (BitVec.eq_of_toNat_eq h0)
    exact h.of_onlyReceive rfl h.memory
      (.of_payload h.receive.fifo rfl hpos hmax hheld (Mem.writtenBelow_zero _) hpend hflag hidle)
      (h.reply.congr rfl rfl rfl)

/-- A completed header can be read (R90). -/
theorem State.RxInv.readRxHeader_ne_unwritten (h : s.RxInv) (hp : s.rxPhase = .headerDone) :
    s.readRxHeader ≠ .unwritten := by
  obtain ⟨-, hw⟩ := h.inHeaderDone hp
  obtain ⟨vs, hvs, -⟩ := Mem.cells_of_written hw (Nat.le_refl 8)
  rw [State.readRxHeader, hvs]
  nofun

theorem rxHandler_inv (h : s.Inv) (hpend : s.pendRx = false) (hx : rxHandler s = .next t) : t.Inv := by
  obtain ⟨hp, hread, -⟩ | ⟨hd, hp, hread, hlabel, rfl⟩ | ⟨hp, rfl⟩ | ⟨hp, rfl⟩ := rxHandler_cases hx
  · exact absurd hread (h.receive.readRxHeader_ne_unwritten hp)
  · exact acceptHeader_inv h hpend hp hread hlabel
  · obtain ⟨hflag, hidle⟩ := h.receive.idle_of_phase (by simp [hp])
    exact rearmRx_inv h hpend hflag hidle
  · obtain ⟨-, hidle⟩ := h.receive.idle_of_phase (by simp [hp])
    obtain ⟨hcount, -, hmax, hheld, hw⟩ := h.receive.inPayloadDone hp
    exact frameDelivered_inv h hpend hidle ⟨_, hmax, hheld, hcount ▸ hw⟩

theorem tickHandler_inv (h : s.Inv) (hx : tickHandler s = .next t) : t.Inv := by
  obtain ⟨hp, rfl⟩ | ⟨b, rfl⟩ := tickHandler_cases hx
  · obtain ⟨hflag, hidle⟩ := h.receive.idle_of_phase (by simp [hp])
    exact rearmRx_inv h (h.receive.pendRx_of_phase (by simp [hp]) (by simp [hp])) hflag hidle
  · exact h.of_onlyFree rfl h.neverUnwritten

theorem setReply_inv {r : Option Header} (h : s.Inv) (hf : s.rxFlag = false) (hp : s.rxPhase = .off)
    (hr : ∀ hd, r = some hd → hd = livenessEcho s.cfg ∨ hd = versionReply s.cfg ∨ hd = runAck s.cfg) :
    (setReply r s).Inv :=
  h.of_onlyReceive rfl h.memory
    (.of_off h.receive.fifo hp (h.receive.pendRx_of_off hp) (by simp [hf]))
    ⟨fun hne => absurd rfl hne, hr⟩

/-- The reply was sent, or there was none: M3 is next (R209). -/
theorem mainReplied_inv (h : s.Inv) (hl : s.mlPhase ≠ .idle) :
    State.Inv { s with mlReply := none, mlPhase := .rearm } := by
  have hp := h.receive.mainOff hl
  have hf := h.receive.rxFlag_of_mlPhase hl
  exact h.of_onlyReceive rfl h.memory
    (.of_off h.receive.fifo hp (h.receive.pendRx_of_off hp) (by simp [hf]))
    ⟨fun _ => rfl, nofun⟩

/-- M3 (R210). -/
theorem mainRearm_inv (h : s.Inv) (hl : s.mlPhase = .rearm) (hx : mainRearm s = .next t) : t.Inv := by
  cases hx
  have hne : s.mlPhase ≠ .idle := by simp [hl]
  have hpend := h.receive.pendRx_of_off (h.receive.mainOff hne)
  exact h.of_onlyReceive rfl h.memory
    (.of_header h.receive.fifo rfl (Nat.zero_le 7) (Mem.writtenBelow_zero _) hpend
      (h.receive.rxFlag_of_mlPhase hne) rfl)
    ⟨fun _ => h.reply.onlyInReply (by simp [hl]), h.reply.known⟩

end reception

end Sys2Proof.Machine

/-! ## The transmit side -/

namespace Sys2Proof.Machine

section transmit

variable {s t : State}

/-- A byte that a transmit in flight still has to send has been written (R91, R174). -/
theorem State.TxInv.txByteAt_ne_unwritten (h : s.TxInv) (hf : s.txFlag = true) {k : Nat} (hk : k < s.txTotal) :
    txByteAt s k ≠ .unwritten := by
  obtain ⟨hw, -, hkind⟩ := h.inFlight hf
  by_cases hk8 : k < 8
  · obtain ⟨b, hb⟩ := hw k hk8
    simp [txByteAt_header hk8, hb]
  obtain ⟨-, htotal⟩ | ⟨hbulk, htotal, hring0, hring1⟩ := hkind
  · omega
  · have hrings : ∀ c, (s.mem.ring c).writtenBelow s.cfg.ringSize := by
      rintro (_ | _)
      · exact hring0
      · exact hring1
    obtain ⟨c, q, hq, rfl⟩ : ∃ c q, q < 2 * s.cfg.ringSize ∧ k = 8 + (bulkBase s.cfg c + q) := by
      by_cases hc : k - 8 < 2 * s.cfg.ringSize
      · exact ⟨.c0, k - 8, hc, by simp only [bulkBase]; omega⟩
      · exact ⟨.c1, k - 8 - 2 * s.cfg.ringSize, by omega, by simp only [bulkBase]; omega⟩
    obtain ⟨v, hv⟩ := hrings c (q / 2) (by omega)
    simp [txByteAt_ring c hbulk hq, hv]

/-- A header written from cell 0 on fills the 8 cells. -/
theorem Mem.writtenBelow_writeHeader (m : Mem 8) (hd : Header) : (m.writeList 0 hd.bytes).writtenBelow 8 := by
  intro a ha
  refine ⟨hd.bytes[a]'ha, ?_⟩
  rw [Mem.read_writeHeader, if_pos ha]
  exact List.getElem?_eq_getElem ha

theorem txMove_inv (h : s.Inv) (hf : s.txFlag = true) (hk : s.txPos < s.txTotal)
    (hx : (txMove s).outcome = .next t) : t.Inv := by
  obtain ⟨hu, -⟩ | ⟨b, rfl⟩ := txMove_cases hx
  · exact absurd hu (h.transmit.txByteAt_ne_unwritten hf hk)
  · obtain ⟨hw, -, hkind⟩ := h.transmit.inFlight hf
    refine h.of_onlyTransmit rfl h.memory ⟨fun _ => ⟨hw, hk, hkind⟩, fun hp => ⟨hf, ?_⟩⟩
    obtain hlast | hp := Bool.or_eq_true_iff.1 hp
    · exact of_decide_eq_true hlast
    · have := (h.transmit.pendingEnd hp).2
      omega

theorem txHandler_inv (h : s.Inv) (hpend : s.pendTx = false) : State.Inv { s with txFlag := false } :=
  h.of_onlyTransmit rfl h.memory ⟨nofun, fun hp => by cases hpend.symm.trans hp⟩

/-- Starting a transmit of a header alone, or of a header and both rings once they are written (R172). -/
theorem txStarted_inv {hd : Header} {bulk : Bool} {plen : Nat} (h : s.Inv) (hf : s.txFlag = false)
    (hkind : (bulk = false ∧ plen = 0) ∨ (bulk = true ∧ plen = 4 * s.cfg.ringSize ∧ s.ringsWritten)) :
    (txStarted hd bulk plen s).Inv := by
  refine h.of_onlyTransmit rfl (Memory.txh_writeList_form hd h.memory.1 h.memory.2)
    ⟨fun _ => ⟨Mem.writtenBelow_writeHeader s.mem.txh hd, Nat.zero_le _, ?_⟩, ?_⟩
  · obtain ⟨rfl, rfl⟩ | ⟨rfl, rfl, hrings⟩ := hkind
    · exact .inl ⟨rfl, rfl⟩
    · exact .inr ⟨rfl, rfl, hrings⟩
  · intro hp
    cases hf.symm.trans (h.transmit.pendingEnd hp).1

theorem sendReply_inv {hd : Header} (h : s.Inv) (hl : s.mlPhase ≠ .idle)
    (hx : (sendReply hd s).outcome = .next t) : t.Inv := by
  obtain ⟨-, rfl⟩ | ⟨hf, rfl⟩ := sendReply_cases hx
  · exact h.raise (by decide)
  · have hs : (txStarted hd false 0 s).Inv := txStarted_inv h hf (.inl ⟨rfl, rfl⟩)
    exact mainReplied_inv hs hl

end transmit

/-! ## The capture side -/

section capture

variable {s t : State} {c : Chan} {r : Channel}

/-! ### One channel's record -/

/-- One more sample is in its cell, and the block is not full (R237). -/
theorem sampleStored_chanInv (h : s.ChanInv c) (ha : (s.chan c).dmaArmed = true)
    (hw : (s.mem.ring c).written (ringIndex s.cfg (s.chan c).blockWrite.toNat (s.chan c).dmaPos))
    (hne : (s.chan c).dmaPos + 1 ≠ s.cfg.nSamples) :
    (s.setChan c { s.chan c with dmaPos := (s.chan c).dmaPos + 1 }).ChanInv c := by
  obtain ⟨hbusy, hdone, hpend⟩ := h.armedBusy ha
  have hpos := h.posInRange
  constructor <;> simp [h.slotInRange, h.countBound, h.landsOnZero, ha, hbusy, hdone, hpend]
  case posInRange => omega
  case earlierBlocks => exact fun x p hx hp hd => h.earlierBlocks x p hx hp (.inl ha) hd
  case currentBlock =>
    intro p hp hle
    obtain hlt | rfl := Nat.lt_or_eq_of_le hle
    · exact h.currentBlock p hp (.inl ⟨ha, hlt⟩)
    · exact hw

/-- The block's last sample is in its cell: the DMA stops and the handler is pending (R237). -/
theorem blockFilled_chanInv (h : s.ChanInv c) (ha : (s.chan c).dmaArmed = true)
    (hw : (s.mem.ring c).written (ringIndex s.cfg (s.chan c).blockWrite.toNat (s.chan c).dmaPos))
    (hlast : (s.chan c).dmaPos + 1 = s.cfg.nSamples) :
    (s.setChan c { s.chan c with dmaArmed := false, dmaPos := 0, pendAdc := true }).ChanInv c := by
  obtain ⟨hbusy, hdone, hpend⟩ := h.armedBusy ha
  constructor <;> simp [h.slotInRange, h.countBound, h.landsOnZero, hbusy, hdone]
  case posInRange => omega
  case earlierBlocks => exact fun x p hx hp hd => h.earlierBlocks x p hx hp (.inl ha) hd
  case currentBlock =>
    intro p hp
    obtain hlt | rfl : p < (s.chan c).dmaPos ∨ p = (s.chan c).dmaPos := by omega
    · exact h.currentBlock p hp (.inl ⟨ha, hlt⟩)
    · exact hw

/-- The handler of the last block: the channel is done (R240). -/
theorem channelDone_chanInv (h : s.ChanInv c) (hp : (s.chan c).pendAdc = true) (hz : (s.chan c).blockCount = 0) :
    (s.setChan c { s.chan c with pendAdc := false, isDone := true }).ChanInv c := by
  obtain ⟨hbusy, hdone⟩ := h.pendingBusy hp
  have harmed : (s.chan c).dmaArmed = false :=
    Bool.eq_false_iff.2 fun ha => by cases hp.symm.trans (h.armedBusy ha).2.2
  constructor <;> simp [h.slotInRange, h.posInRange, harmed, hz]
  case landsOnZero => simpa [hz] using h.landsOnZero
  case earlierBlocks =>
    exact fun x p hx hp' hd => h.earlierBlocks x p hx hp' (.inr (.inl hp)) (by rw [hz]; exact hd)
  case currentBlock => exact fun p hp' => h.currentBlock p hp' (.inr (.inl hp))

/-- The handler of any other block: the next slot is armed (R239). The block just filled is now the farthest behind,
every other block one nearer. -/
theorem channelRearmed_chanInv (hc : s.cfg.admissible) (h : s.ChanInv c) (hp : (s.chan c).pendAdc = true)
    (hnz : (s.chan c).blockCount ≠ 0) :
    (s.setChan c { s.chan c with
      pendAdc := false
      blockWrite := nextSlot s.cfg (s.chan c).blockWrite
      dmaPos := 0
      dmaArmed := true
      blockCount := (s.chan c).blockCount - 1 }).ChanInv c := by
  obtain ⟨hbusy, hdone⟩ := h.pendingBusy hp
  have hnext := toNat_nextSlot hc h.slotInRange
  have hslot := h.slotInRange
  have hcount : ((s.chan c).blockCount - 1#32).toNat + 1 = (s.chan c).blockCount.toNat := by
    have : (s.chan c).blockCount.toNat ≠ 0 := fun h0 => hnz (BitVec.eq_of_toNat_eq h0)
    bv_omega
  have hbound := h.countBound
  have hzero := h.landsOnZero
  have hpos := h.posInRange
  constructor <;> simp [hbusy, hdone, -BitVec.toNat_sub]
  case slotInRange => rw [hnext]; exact Nat.mod_lt _ (by omega)
  case posInRange => omega
  case countBound => omega
  case landsOnZero =>
    rw [hnext, Nat.mod_add_mod, Nat.add_assoc, Nat.add_comm 1, hcount]
    exact hzero
  case earlierBlocks =>
    intro x p hx hp' hd
    by_cases hxb : x = (s.chan c).blockWrite.toNat
    · exact hxb ▸ h.currentBlock p hp' (.inr (.inl hp))
    · refine h.earlierBlocks x p hx hp' (.inr (.inl hp)) ?_
      calc (s.chan c).blockCount.toNat = _ := hcount.symm
        _ < _ := Nat.succ_lt_succ hd
        _ = slotDistance s.cfg (s.chan c) x := (slotDistance_next hslot hnext hx hxb).symm

/-- An acquisition starts: the count is larger than every distance, so no cell is said to be written (R232). -/
theorem acquireStart_chanInv {interval l : U16} (h : s.Inv) (hidle : s.acqBusy = false)
    (hl : s.cfg.admitsLength l.toNat) (d : Chan) : (acquireStart interval l s).ChanInv d := by
  have hchan : (acquireStart interval l s).chan d = armChannel s.cfg (offsetOf s.cfg l.toNat).1 (s.chan d) := by
    cases d <;> rfl
  have hbusy : (acquireStart interval l s).acqBusy = true := rfl
  have hpend : (s.chan d).pendAdc = false :=
    Bool.eq_false_iff.2 fun hp => by cases hidle.symm.trans ((h.channel d).pendingBusy hp).1
  obtain ⟨hoff, -⟩ := offsetOf_rowOk h.config hl
  have hslot := toNat_startSlot h.config (offsetOf s.cfg l.toNat).1
  have hcount := toNat_startCount h.config hoff
  have hN := nBlocks_bounds h.config
  have hpos := (h.channel d).posInRange
  constructor <;> simp [hchan, hbusy, hpend, armChannel, hslot, hcount]
  case slotInRange => exact Nat.mod_lt _ (by omega)
  case posInRange => omega
  case countBound => omega
  case landsOnZero =>
    rw [show s.cfg.nBlocks - (offsetOf s.cfg l.toNat).1 + (s.cfg.nBlocks + (offsetOf s.cfg l.toNat).1) =
      2 * s.cfg.nBlocks by omega, Nat.mul_mod_left]
  case earlierBlocks =>
    intro x p hx _ hd
    have := Nat.mod_lt (x + s.cfg.nBlocks - (startSlot s.cfg (offsetOf s.cfg l.toNat).1).toNat)
      (show s.cfg.nBlocks > 0 by omega)
    simp only [slotDistance] at hd
    omega

/-- A finished channel stays as it is when the acquisition ends (R241). -/
theorem endAcquisition_chanInv (h : s.ChanInv c) (hdone : (s.chan c).isDone = true) :
    (endAcquisition s).ChanInv c where
  slotInRange := h.slotInRange
  posInRange := h.posInRange
  countBound := h.countBound
  landsOnZero := h.landsOnZero
  armedBusy := fun ha => by cases hdone.symm.trans (h.armedBusy ha).2.1
  pendingBusy := fun hp => by cases hdone.symm.trans (h.pendingBusy hp).2
  busyActive := nofun
  doneCount := h.doneCount
  earlierBlocks := h.earlierBlocks
  currentBlock := h.currentBlock

/-- Every ring cell is a sample of a slot (R74). -/
theorem exists_ringIndex {cfg : Config} {a : Nat} (ha : a < cfg.ringSize) :
    ∃ x p, x < cfg.nBlocks ∧ p < cfg.nSamples ∧ a = ringIndex cfg x p := by
  have hS : 0 < cfg.nSamples := Nat.pos_of_ne_zero fun h0 => by simp [Config.ringSize, h0] at ha
  exact ⟨a / cfg.nSamples, a % cfg.nSamples, (Nat.div_lt_iff_lt_mul hS).2 ha, Nat.mod_lt a hS,
    by rw [ringIndex, Nat.mul_comm, Nat.div_add_mod]⟩

/-- A finished channel has written its whole ring: its count is 0, so every block is the current one or an earlier
one (R244, R245). -/
theorem State.ChanInv.ring_written (h : s.ChanInv c) (hdone : (s.chan c).isDone = true) :
    (s.mem.ring c).writtenBelow s.cfg.ringSize := by
  intro a ha
  obtain ⟨x, p, hx, hp, rfl⟩ := exists_ringIndex ha
  by_cases hb : x = (s.chan c).blockWrite.toNat
  · exact hb ▸ h.currentBlock p hp (.inr (.inr hdone))
  · refine h.earlierBlocks x p hx hp (.inr (.inr hdone)) ?_
    have hslot := h.slotInRange
    have hfar : 0 < slotDistance s.cfg (s.chan c) x := by rw [slotDistance_eq hx]; split <;> omega
    rwa [h.doneCount hdone]

/-! ### The moves of the capture side -/

/-- Replacing one channel's record leaves the other channel's part of the invariant. -/
theorem setChan_chanInv (h : ∀ d, s.ChanInv d) (hr : (s.setChan c r).ChanInv c) (d : Chan) :
    (s.setChan c r).ChanInv d := by
  by_cases hd : d = c
  · exact hd ▸ hr
  · exact (h d).congr (by simp) (by simp [State.setChan_chan, hd]) (by simp) (by simp)

theorem setChan_inv (h : s.Inv) (hr : (s.setChan c r).ChanInv c) (ha : (s.setChan c r).AcqInv) :
    (s.setChan c r).Inv :=
  h.of_onlyCapture (by cases c <;> rfl) (by simpa using h.memory) (by simp) (setChan_chanInv h.channel hr) ha

/-- A record with the same done flag keeps the acquisition's part. -/
theorem setChan_acqInv (h : s.AcqInv) (hr : r.isDone = (s.chan c).isDone) : (s.setChan c r).AcqInv := by
  cases c
  · exact h.congr rfl rfl hr rfl
  · exact h.congr rfl rfl rfl hr

@[simp] theorem State.ringWrite_chan (s : State) (c d : Chan) (i : Nat) (v : U16) :
    (s.ringWrite c i v).chan d = s.chan d := by cases d <;> rfl

theorem ringWrite_inv {i : Nat} (v : U16) (h : s.Inv) (hi : i < s.cfg.ringSize) : (s.ringWrite c i v).Inv := by
  have hw : ∀ d a, (s.mem.ring d).written a → ((s.ringWrite c i v).mem.ring d).written a := by
    intro d a ha
    rw [State.ringWrite_mem, Memory.setRing_ring]
    split
    · exact Mem.written_write v (‹d = c› ▸ ha)
    · exact ha
  exact h.of_onlyCapture (by cases c <;> rfl) (State.ringWrite_form c v hi h.memory.1 h.memory.2) hw
    (fun d => (h.channel d).congr rfl (by cases d <;> rfl) rfl (hw d)) (h.acquisition.congr rfl rfl rfl rfl)

theorem setChan_pend_adc : (s.setChan c r).pend (.adc c) = s.setChan c { r with pendAdc := true } := by
  cases c <;> rfl

theorem sampleIn_inv {v : U16} (h : s.Inv) (hx : (sampleIn c v s).outcome = .next t) : t.Inv := by
  obtain ⟨ha, hne, hi, he⟩ | ⟨ha, hlast, hi, he⟩ | ⟨-, -, he⟩ | ⟨-, -, he⟩ | ⟨-, -, he⟩ :=
    sampleIn_cases c v s <;> rw [he] at hx <;> cases hx
  · have hs := ringWrite_inv (c := c) v h hi
    have hr := sampleStored_chanInv (hs.channel c) (by simpa using ha) (by simp [Mem.written_write_same]) hne
    exact setChan_inv hs (by simpa using hr) (setChan_acqInv hs.acquisition rfl)
  · have hs := ringWrite_inv (c := c) v h hi
    have hr := blockFilled_chanInv (hs.channel c) (by simpa using ha) (by simp [Mem.written_write_same]) hlast
    rw [setChan_pend_adc]
    exact setChan_inv hs (by simpa using hr) (setChan_acqInv hs.acquisition rfl)
  · exact h.raise nofun
  · exact h

theorem sampleMove_inv {v0 v1 : U16} (h : s.Inv) (hx : (sampleMove v0 v1 s).outcome = .next t) : t.Inv := by
  obtain hx | ⟨u, h0, h1⟩ := sampleMove_cases hx
  · exact sampleIn_inv h (Flow.outcome_eq_next.2 (.inr hx))
  · exact sampleIn_inv (sampleIn_inv h (Flow.outcome_eq_next.2 (.inl h0))) h1

theorem acquireStart_inv {interval l : U16} (h : s.Inv) (hidle : s.acqBusy = false)
    (hl : s.cfg.admitsLength l.toNat) : (acquireStart interval l s).Inv :=
  h.of_onlyCapture rfl h.memory (fun _ _ => id) (acquireStart_chanInv h hidle hl) ⟨rfl, nofun⟩

end capture
end Sys2Proof.Machine

/-! ## Handlers, main-loop steps and the step -/

namespace Sys2Proof.Machine

section moves

variable {s t : State} {c : Chan}

/-! ### The channel handler -/

/-- The last block of channel `c`: its record with the handler entered and the channel done (R240). -/
def channelDone (c : Chan) (s : State) : State :=
  s.setChan c { s.chan c with pendAdc := false, isDone := true }

theorem markDone_clearPend (c : Chan) (s : State) : markDone c (s.clearPend (.adc c)) = channelDone c s := by
  cases c <;> rfl

theorem rearmChannel_clearPend (c : Chan) (s : State) :
    rearmChannel c (s.clearPend (.adc c)) = s.setChan c { s.chan c with
      pendAdc := false
      blockWrite := nextSlot s.cfg (s.chan c).blockWrite
      dmaPos := 0
      dmaArmed := true
      blockCount := (s.chan c).blockCount - 1 } := by
  cases c <;> rfl

/-- The first channel to finish (R240). -/
theorem channelDone_inv (h : s.Inv) (hp : (s.chan c).pendAdc = true) (hz : (s.chan c).blockCount = 0)
    (ho : (s.chan c.other).isDone = false) : (channelDone c s).Inv := by
  refine setChan_inv h (channelDone_chanInv (h.channel c) hp hz) ⟨?_, ?_⟩
  · simpa using h.acquisition.timerBusy
  · cases c
    · intro _ h1; cases ho.symm.trans h1
    · intro h0 _; cases ho.symm.trans h0

/-- The second channel to finish ends the acquisition (R241), and both rings are written. -/
theorem rendezvous_inv (h : s.Inv) (hp : (s.chan c).pendAdc = true) (hz : (s.chan c).blockCount = 0)
    (ho : (s.chan c.other).isDone = true) :
    (endAcquisition (channelDone c s)).Inv ∧ (endAcquisition (channelDone c s)).ringsWritten := by
  have hchan := setChan_chanInv h.channel (channelDone_chanInv (h.channel c) hp hz)
  have hdone : ∀ d, ((channelDone c s).chan d).isDone = true := by
    intro d
    obtain rfl | rfl : d = c ∨ d = c.other := by cases c <;> cases d <;> simp [Chan.other]
    · simp [channelDone]
    · simpa [channelDone] using ho
  refine ⟨h.of_onlyCapture (by cases c <;> rfl) (by simpa [channelDone] using h.memory) (by simp [channelDone])
    (fun d => endAcquisition_chanInv (hchan d) (hdone d)) ⟨rfl, fun _ _ => rfl⟩, ?_⟩
  have hring := fun d => (hchan d).ring_written (hdone d)
  exact ⟨hring .c0, hring .c1⟩

theorem adcHandler_inv (h : s.Inv) (hp : (s.chan c).pendAdc = true)
    (hx : adcHandler c (s.clearPend (.adc c)) = .next t) : t.Inv := by
  have hcount : ((s.clearPend (.adc c)).chan c).blockCount = (s.chan c).blockCount := by cases c <;> rfl
  have hother : (s.clearPend (.adc c)).chan c.other = s.chan c.other := by cases c <;> rfl
  have hcases := adcHandler_cases hx
  rw [hcount, hother, markDone_clearPend, rearmChannel_clearPend] at hcases
  obtain ⟨hnz, rfl⟩ | ⟨hz, ho, rfl⟩ | ⟨hz, ho, hd, hx⟩ := hcases
  · exact setChan_inv h (channelRearmed_chanInv h.config (h.channel c) hp hnz) (setChan_acqInv h.acquisition rfl)
  · exact channelDone_inv h hp hz ho
  · obtain ⟨hu, hrings⟩ := rendezvous_inv h hp hz ho
    obtain ⟨-, rfl⟩ | ⟨hf, rfl⟩ := startTx_outcome_cases hx
    · exact hu.raise (by decide)
    · exact txStarted_inv hu hf (.inr ⟨rfl, by simp [channelDone], hrings⟩)

theorem runHandler_inv {x : IntSource} (h : s.Inv) (hp : s.pending x = true) (hx : runHandler x s = .next t) :
    t.Inv := by
  rw [runHandler, returned_eq, enterHandler] at hx
  cases x with
  | rx =>
    have hs : (s.clearPend .rx).Inv :=
      h.of_onlyReceive rfl h.memory { h.receive with pendingDone := nofun } (h.reply.congr rfl rfl rfl)
    exact rxHandler_inv hs rfl hx
  | tx =>
    have hs : (s.clearPend .tx).Inv := h.of_onlyTransmit rfl h.memory ⟨h.transmit.inFlight, nofun⟩
    cases hx
    exact txHandler_inv hs rfl
  | adc c => exact adcHandler_inv h hp hx
  | tick =>
    have hs : (s.clearPend .tick).Inv := h.of_onlyFree rfl h.neverUnwritten
    exact tickHandler_inv hs hx

/-! ### Main-loop steps -/

/-- A command executed by M1 (R200): reception is off, no frame waits any more, and the main loop is idle. -/
theorem CommandEffect.inv (hx : CommandEffect s t) (h : s.Inv) (hf : s.rxFlag = false) (hp : s.rxPhase = .off)
    (hl : s.mlPhase = .idle) : t.Inv := by
  cases hx with
  | faulted f hne => exact h.raise hne
  | refused r => exact h.of_onlyFree rfl h.neverUnwritten
  | answered r hr => exact setReply_inv h hf hp fun hd hs => (hr hd hs).imp_right .inl
  | started interval l hidle hadm =>
    exact setReply_inv (acquireStart_inv h hidle hadm) hf hp fun _ hs => .inr (.inr (Option.some.inj hs).symm)
  | rearmed => exact rearmRx_inv h (h.receive.pendRx_of_off hp) hf hl

/-- A waiting frame can be read whole (R90). -/
theorem State.RxInv.frame_readable (h : s.RxInv) (hf : s.rxFlag = true) :
    ∃ hd : Header, s.readRxHeader = .value hd.bytes ∧ s.readRxPayload hd.lengthField.toNat ≠ .unwritten := by
  obtain ⟨n, hmax, ⟨hd, hread, -, rfl⟩, hw⟩ := h.frameHeld hf
  refine ⟨hd, hread, ?_⟩
  obtain ⟨vs, hvs, -⟩ := Mem.cells_of_written hw hmax
  rw [State.readRxPayload, hvs]
  nofun

theorem mainTake_inv (h : s.Inv) (hf : s.rxFlag = true) (hx : mainTake s = .next t) : t.Inv := by
  obtain ⟨hp, hl⟩ := h.receive.flagOff hf
  have hs : State.Inv { s with rxFlag := false } :=
    h.of_onlyReceive rfl h.memory
      (.of_off h.receive.fifo hp (h.receive.pendRx_of_off hp) nofun)
      (h.reply.congr rfl rfl rfl)
  obtain ⟨hd, hread, hpay⟩ := h.receive.frame_readable hf
  obtain ⟨hu, -⟩ | ⟨hd', hread', hx⟩ := mainTake_cases hx
  · cases hread.symm.trans hu
  · have heq := hread.symm.trans hread'
    rw [Read.value.injEq, Header.bytes_inj] at heq
    subst heq
    obtain ⟨hu, -⟩ | hx := hx
    · exact absurd hu hpay
    · exact hx.inv hs rfl hp hl

theorem mainReply_inv (h : s.Inv) (hl : s.mlPhase = .reply) (hx : mainReply s = .next t) : t.Inv := by
  have hne : s.mlPhase ≠ .idle := by simp [hl]
  obtain ⟨hr, rfl⟩ | ⟨hd, -, hx⟩ := mainReply_cases hx
  · have := mainReplied_inv h hne
    rwa [← hr] at this
  · exact sendReply_inv h hne hx

theorem mainStep_inv (h : s.Inv) (hen : s.mainEnabled = true) (hx : mainStep s = .next t) : t.Inv := by
  unfold mainStep at hx
  split at hx
  · rename_i hl
    exact mainTake_inv h (by simpa [State.mainEnabled, hl] using hen) hx
  · exact mainReply_inv h ‹_› hx
  · exact mainRearm_inv h ‹_› hx

/-! ### The step -/

theorem moveBody_inv {e : Event} (h : s.Inv) (hen : s.enabled e = true) (hx : moveBody e s = .next t) : t.Inv := by
  cases e with
  | send b => exact hostSend_inv h hx
  | uart => exact uartMove_inv h hx
  | txb =>
    obtain ⟨hf, hk⟩ := Bool.and_eq_true_iff.1 hen
    exact txMove_inv h hf (of_decide_eq_true hk) hx
  | tick => cases hx; exact h.of_onlyFree rfl h.neverUnwritten
  | sample v0 v1 => exact sampleMove_inv h hx
  | isr x => exact runHandler_inv h hen hx
  | ml => exact mainStep_inv h (Bool.and_eq_true_iff.1 hen).2 hx

theorem runMove_inv {e : Event} (h : s.Inv) (hx : runMove e s = .next t) : t.Inv := by
  obtain ⟨hen, he⟩ | ⟨-, he⟩ := runMove_cases e s <;> rw [he] at hx
  · exact moveBody_inv h hen hx
  · cases hx; exact h

/-- Settles O54: using up a choice touches nothing the invariant reads, and each move keeps the parts of its side. -/
theorem stepKeepsInvariant : Obligations.StepKeepsInvariant := by
  intro s t h hx
  obtain ⟨-, e, m, d, hmove⟩ := step_eq_next hx
  have hs : State.Inv { s with moves := m, drawn := d } := h.of_onlyFree rfl h.neverUnwritten
  exact runMove_inv hs hmove

end moves

end Sys2Proof.Machine

/-! # The five memories keep their form (R70, R73) -/

namespace Sys2Proof.Machine

/-- Every memory is in canonical form and inside the size the state's configuration gives it. -/
def State.MemForm (s : State) : Prop := s.mem.wf ∧ s.mem.inBounds s.cfg

section form

variable {s t : State}

/-- The form reads the memories and the configuration only. -/
theorem State.MemForm.congr (h : s.MemForm) (hc : t.cfg = s.cfg) (hm : t.mem = s.mem) : t.MemForm := by
  unfold State.MemForm
  rw [hc, hm]
  exact h

/-! ## Hardware moves -/

theorem hostSend_memForm {b : Byte} (h : s.MemForm) (hx : (hostSend b s).outcome = .next t) : t.MemForm := by
  obtain ⟨-, rfl⟩ | rfl := hostSend_cases hx <;> exact h.congr rfl rfl

/-- A received byte is written at `rx_count`, checked to be below the buffer's size (R162, R163). -/
theorem uartMove_memForm (h : s.MemForm) (hx : (uartMove s).outcome = .next t) : t.MemForm := by
  obtain rfl | ⟨b, rest, -, ⟨-, hx⟩ | ⟨-, hx⟩⟩ := uartMove_cases hx
  · exact h
  · obtain ⟨hlt, hx⟩ := uartHeader_cases hx
    have hin : (headerByteIn b rest s).MemForm := Memory.rxh_write_form b hlt h.1 h.2
    obtain ⟨-, rfl⟩ | ⟨-, rfl⟩ := hx <;> exact hin.congr rfl rfl
  · obtain ⟨hlt, hx⟩ := uartPayload_cases hx
    have hin : (payloadByteIn b rest s).MemForm := Memory.rxp_write_form b hlt h.1 h.2
    obtain ⟨-, rfl⟩ | ⟨-, rfl⟩ := hx <;> exact hin.congr rfl rfl

theorem txMove_memForm (h : s.MemForm) (hx : (txMove s).outcome = .next t) : t.MemForm :=
  h.congr (txMove_keepsMarks hx).cfg (txMove_output hx).2

/-- A sample is written at its ring index, checked to be below the ring's size (R237). -/
theorem sampleIn_memForm {c : Chan} {v : U16} (h : s.MemForm) (hx : (sampleIn c v s).outcome = .next t) :
    t.MemForm := by
  have hring : ∀ {i}, i < s.cfg.ringSize → (s.ringWrite c i v).MemForm := fun hi =>
    State.ringWrite_form c v hi h.1 h.2
  obtain ⟨-, -, hi, he⟩ | ⟨-, -, hi, he⟩ | ⟨-, -, he⟩ | ⟨-, -, he⟩ | ⟨-, -, he⟩ :=
    sampleIn_cases c v s <;> rw [he] at hx <;> cases hx
  · exact (hring hi).congr (by simp) (by simp)
  · exact (hring hi).congr (by simp) (by simp)
  · exact h.congr rfl rfl
  · exact h

theorem sampleMove_memForm {v0 v1 : U16} (h : s.MemForm) (hx : (sampleMove v0 v1 s).outcome = .next t) :
    t.MemForm := by
  obtain hx | ⟨u, h0, h1⟩ := sampleMove_cases hx
  · exact sampleIn_memForm h (Flow.outcome_eq_next.2 (.inr hx))
  · exact sampleIn_memForm (sampleIn_memForm h (Flow.outcome_eq_next.2 (.inl h0))) h1

/-! ## Transmit start -/

/-- A started transmit writes the 8 cells of `TXH` (R172). -/
theorem txStarted_memForm (hd : Header) (bulk : Bool) (plen : Nat) (h : s.MemForm) :
    (txStarted hd bulk plen s).MemForm := Memory.txh_writeList_form hd h.1 h.2

theorem startTx_memForm {hd : Header} {bulk : Bool} {plen : Nat} (h : s.MemForm)
    (hx : (startTx hd bulk plen s).outcome = .next t) : t.MemForm := by
  obtain ⟨-, rfl⟩ | ⟨-, rfl⟩ := startTx_outcome_cases hx
  · exact h.congr rfl rfl
  · exact txStarted_memForm hd bulk plen h

theorem sendReply_memForm {hd : Header} (h : s.MemForm) (hx : (sendReply hd s).outcome = .next t) :
    t.MemForm := by
  obtain ⟨-, rfl⟩ | ⟨-, rfl⟩ := sendReply_cases hx
  · exact h.congr rfl rfl
  · exact (txStarted_memForm hd false 0 h).congr rfl rfl

/-! ## Interrupt handlers -/

@[simp] theorem acceptHeader_mem (p : Packet) (s : State) : (acceptHeader p s).mem = s.mem := by
  obtain ⟨-, he⟩ | ⟨-, -, he⟩ | ⟨-, -, he⟩ := acceptHeader_cases p s <;> simp [he]

theorem rxHandler_memForm (h : s.MemForm) (hx : rxHandler s = .next t) : t.MemForm := by
  refine h.congr (rxHandler_quiet hx).cfg ?_
  obtain ⟨-, -, rfl⟩ | ⟨hd, -, -, -, rfl⟩ | ⟨-, rfl⟩ | ⟨-, rfl⟩ := rxHandler_cases hx
  · rfl
  · exact acceptHeader_mem _ s
  · rfl
  · rfl

/-- Only the handoff of the second channel to finish writes, and it starts a transmit (R239 to R241). -/
theorem adcHandler_memForm {c : Chan} (h : s.MemForm) (hx : adcHandler c s = .next t) : t.MemForm := by
  obtain ⟨-, rfl⟩ | ⟨-, -, rfl⟩ | ⟨-, -, hd, hx⟩ := adcHandler_cases hx
  · exact h.congr (by simp) (by simp)
  · exact h.congr (by simp) (by simp)
  · have hended : (endAcquisition (markDone c s)).MemForm := h.congr (by simp) (by simp)
    exact startTx_memForm hended hx

theorem tickHandler_memForm (h : s.MemForm) (hx : tickHandler s = .next t) : t.MemForm := by
  obtain ⟨-, rfl⟩ | ⟨b, rfl⟩ := tickHandler_cases hx <;> exact h.congr rfl rfl

theorem runHandler_memForm {x : IntSource} (h : s.MemForm) (hx : runHandler x s = .next t) : t.MemForm := by
  rw [runHandler, returned_eq, enterHandler] at hx
  have hentered : (s.clearPend x).MemForm := h.congr (by simp) (by simp)
  cases x with
  | rx => exact rxHandler_memForm hentered hx
  | tx => cases hx; exact h.congr rfl rfl
  | adc c => exact adcHandler_memForm hentered hx
  | tick => exact tickHandler_memForm hentered hx

/-! ## Main-loop steps -/

/-- No command writes a memory: its reply is written to `TXH` by M2 (R200, R209). -/
theorem CommandEffect.mem_eq (hx : CommandEffect s t) : t.mem = s.mem := by
  cases hx <;> rfl

theorem mainTake_memForm (h : s.MemForm) (hx : mainTake s = .next t) : t.MemForm := by
  refine h.congr (mainTake_quiet hx).cfg ?_
  obtain ⟨-, rfl⟩ | ⟨hd, -, ⟨-, rfl⟩ | hx⟩ := mainTake_cases hx
  · rfl
  · rfl
  · exact hx.mem_eq

theorem mainReply_memForm (h : s.MemForm) (hx : mainReply s = .next t) : t.MemForm := by
  obtain ⟨-, rfl⟩ | ⟨hd, -, hx⟩ := mainReply_cases hx
  · exact h.congr rfl rfl
  · exact sendReply_memForm h hx

theorem mainStep_memForm (h : s.MemForm) (hx : mainStep s = .next t) : t.MemForm := by
  unfold mainStep at hx
  split at hx
  · exact mainTake_memForm h hx
  · exact mainReply_memForm h hx
  · cases hx; exact h.congr rfl rfl

/-! ## The step -/

theorem moveBody_memForm {e : Event} (h : s.MemForm) (hx : moveBody e s = .next t) : t.MemForm := by
  cases e with
  | send b => exact hostSend_memForm h hx
  | uart => exact uartMove_memForm h hx
  | txb => exact txMove_memForm h hx
  | tick => cases hx; exact h.congr rfl rfl
  | sample v0 v1 => exact sampleMove_memForm h hx
  | isr x => exact runHandler_memForm h hx
  | ml => exact mainStep_memForm h hx

theorem runMove_memForm {e : Event} (h : s.MemForm) (hx : runMove e s = .next t) : t.MemForm := by
  obtain ⟨-, he⟩ | ⟨-, he⟩ := runMove_cases e s <;> rw [he] at hx
  · exact moveBody_memForm h hx
  · cases hx; exact h

/-- Settles O53: every write of a move is at an index checked against its memory's size, or is a whole header. -/
theorem stepKeepsMemoryForm : Obligations.StepKeepsMemoryForm := by
  intro s t hw hb hx
  obtain ⟨-, e, m, d, hmove⟩ := step_eq_next hx
  have hchosen : State.MemForm { s with moves := m, drawn := d } := ⟨hw, hb⟩
  exact runMove_memForm hchosen hmove

end form

end Sys2Proof.Machine

/-! # Packed words on the wire (R75, R76, R78) -/

namespace Sys2Proof.Machine

/-- A sample is its two bytes, low byte first (R18). -/
theorem toNat_eq_bytes (v : U16) : v.toNat = (loByte v).toNat + 256 * (hiByte v).toNat := by
  rw [← le16_toNat, le16_bytes]

/-- A packed word is two samples, the first in its low half (R75). -/
theorem toNat_packedWord (lo hi : U16) : (hi ++ lo : U32).toNat = lo.toNat + 65536 * hi.toNat := by
  rw [BitVec.toNat_append, Nat.shiftLeft_eq, Nat.mul_comm, ← Nat.two_pow_add_eq_or_of_lt lo.isLt]
  exact Nat.add_comm _ _

/-- A word has a value exactly when both its samples are written (R75). -/
theorem State.ringWord_eq_some {s : State} {c : Chan} {w : Nat} {x : U32} : s.ringWord c w = some x ↔
    ∃ lo hi, (s.mem.ring c).read (2 * w) = some lo ∧ (s.mem.ring c).read (2 * w + 1) = some hi ∧ x = hi ++ lo := by
  unfold State.ringWord
  cases (s.mem.ring c).read (2 * w) <;> cases (s.mem.ring c).read (2 * w + 1) <;> simp [eq_comm]

/-- A written sample's two payload bytes: the low byte first, then the high byte (R78, R174). -/
theorem txByteAt_sample {s : State} {c : Chan} {i k : Nat} {v : U16} (hb : s.txBulk = true) (hi : i < s.cfg.ringSize)
    (hv : (s.mem.ring c).read i = some v) (hk : k = 8 + bulkBase s.cfg c + 2 * i) :
    txByteAt s k = .byte (loByte v) ∧ txByteAt s (k + 1) = .byte (hiByte v) := by
  have hdiv : (2 * i + 1) / 2 = i := by omega
  subst hk
  rw [Nat.add_assoc, Nat.add_assoc, Nat.add_assoc, txByteAt_ring c hb (by omega), txByteAt_ring c hb (by omega)]
  simp [hdiv, hv]

/-- Settles O39: the word's two samples are sent one after the other, each low byte first. -/
theorem packedWordsOnTheWire : Obligations.PackedWordsOnTheWire := by
  intro s c w x hb hw hx k
  obtain ⟨lo, hi, hlo, hhi, rfl⟩ := State.ringWord_eq_some.1 hx
  obtain ⟨h0, h1⟩ := txByteAt_sample (k := k) hb (by omega) hlo (by omega)
  obtain ⟨h2, h3⟩ := txByteAt_sample (k := k + 2) hb (by omega) hhi (by omega)
  refine ⟨loByte lo, hiByte lo, loByte hi, hiByte hi, h0, h1, h2, h3, ?_⟩
  rw [toNat_packedWord, toNat_eq_bytes lo, toNat_eq_bytes hi]
  omega

end Sys2Proof.Machine

/-! # The encoding and its decoder (R100 to R110, R146) -/

namespace Sys2Proof

/-! ## The selection of R106 against the encoder -/

theorem codes_differ :
    codeK ≠ code8 ∧ codeK ≠ codeO ∧ codeK ≠ codeV ∧ code8 ≠ codeO ∧ code8 ≠ codeV ∧ codeO ≠ codeV := by
  decide

/-- A well-formed command is what R106 selects for its own header's packet and its own payload. -/
theorem classify_header {c : Config} {i : Instr} (hw : i.wellFormed c = true) (hd : i.direction = .hostToDevice)
    (hl : (i.header c).b0 = c.label) :
    classify c ⟨(i.header c).b0, (i.header c).b1, (i.header c).lengthField, (i.header c).argTag⟩ i.payload = i := by
  obtain ⟨hk8, hko, hkv, h8o, h8v, hov⟩ := codes_differ
  have h8k : code8 ≠ codeK := hk8.symm
  cases i with
  | frameError label code length arg => exact absurd hl (of_decide_eq_true hw)
  | liveness pl | version pl | oscRun pl => rfl
  | voltmeter arg pl => simp [classify, Instr.header, Instr.payload, hkv.symm, h8v.symm, hov.symm]
  | oscOther arg pl =>
    obtain ⟨harg, -⟩ := of_decide_eq_true hw
    simp [classify, Instr.header, Instr.payload, tagEq_iff, harg, hko.symm, h8o.symm]
  | external code arg pl =>
    obtain ⟨hmem, ho, hv, hk, h8, -⟩ := of_decide_eq_true hw
    simp [classify, Instr.header, Instr.payload, tagEq_iff, hmem, ho, hv, hk, h8]
  | kOther arg pl =>
    obtain ⟨harg, hmem, -⟩ := of_decide_eq_true hw
    simp [classify, Instr.header, Instr.payload, tagEq_iff, harg, hmem, hk8, hko, hkv]
  | verOther arg pl =>
    obtain ⟨harg, hmem, -⟩ := of_decide_eq_true hw
    simp [classify, Instr.header, Instr.payload, tagEq_iff, harg, hmem, h8k, h8o, h8v]
  | unsupported code arg pl =>
    obtain ⟨hmem, ho, hv, hk, h8, -⟩ := of_decide_eq_true hw
    simp [classify, Instr.header, Instr.payload, hmem, ho, hv, hk, h8]
  | replyLiveness | replyVersion | replyRunAck | replyBulk intra interval => cases hd

/-- What R106 selects is framed with the packet's code and argument and the payload's length. -/
theorem header_classify (c : Config) (p : Packet) (pl : List Byte) :
    (classify c p pl).header c = mkHeader c.label p.code (BitVec.ofNat 16 pl.length) p.arg := by
  unfold classify
  split_ifs <;> simp_all [Instr.header, tagEq_iff]

theorem payload_classify (c : Config) (p : Packet) (pl : List Byte) : (classify c p pl).payload = pl := by
  unfold classify
  split_ifs <;> rfl

theorem wellFormed_classify (c : Config) (p : Packet) {pl : List Byte} (hp : payloadOk pl) :
    (classify c p pl).wellFormed c = true := by
  unfold classify
  split_ifs <;> simp_all [Instr.wellFormed, tagEq_iff]

/-! ## Received frames, both ways -/

/-- The frozen family `WireForm`, for every instruction at once. -/
theorem wireForm (i : Instr) : Laws.WireForm.Statement i := by
  cases i with
  | frameError label code length arg => exact Laws.WireForm.frameError label code length arg
  | liveness pl => exact Laws.WireForm.liveness pl
  | version pl => exact Laws.WireForm.version pl
  | oscRun pl => exact Laws.WireForm.oscRun pl
  | oscOther arg pl => exact Laws.WireForm.oscOther arg pl
  | voltmeter arg pl => exact Laws.WireForm.voltmeter arg pl
  | external code arg pl => exact Laws.WireForm.external code arg pl
  | kOther arg pl => exact Laws.WireForm.kOther arg pl
  | verOther arg pl => exact Laws.WireForm.verOther arg pl
  | unsupported code arg pl => exact Laws.WireForm.unsupported code arg pl
  | replyLiveness => exact Laws.WireForm.replyLiveness
  | replyVersion => exact Laws.WireForm.replyVersion
  | replyRunAck => exact Laws.WireForm.replyRunAck
  | replyBulk intra interval => exact Laws.WireForm.replyBulk intra interval

@[simp] theorem header_frameErrorOf (c : Config) (h : Header) : (frameErrorOf h).header c = h := mkHeader_fields h

/-- A frame whose label byte is wrong is a FRAME_ERROR with its 8 header bytes and no payload (R142). -/
theorem eq_frameErrorOf_of_label_ne {c : Config} {i : Instr} (hl : (i.header c).b0 ≠ c.label) :
    i = frameErrorOf (i.header c) ∧ i.payload = [] := by
  cases i with
  | frameError label code length arg => simp [frameErrorOf, Instr.header, Instr.payload]
  | _ => exact absurd rfl hl

theorem decodeCommand_encode {c : Config} {i : Instr} (rest : List Byte) (hw : i.wellFormed c = true)
    (hd : i.direction = .hostToDevice) : decodeCommand c (encode c i ++ rest) = .ok (i, rest) := by
  rw [encode, List.append_assoc]
  by_cases hl : (i.header c).b0 = c.label
  · obtain ⟨-, -, hlen⟩ := wireForm i c hw
    rw [decodeCommand_header hl _ _ (hlen hd hl).symm, classify_header hw hd hl]
  · obtain ⟨hi, hpl⟩ := eq_frameErrorOf_of_label_ne hl
    rw [hpl, List.nil_append, decodeCommand_frameError hl, ← hi]

/-- What a received frame can decode to: a FRAME_ERROR of its header alone, or what R106 selects for its header
and as many payload bytes as the header declares (R103, R142). -/
theorem decodeCommand_eq_ok {c : Config} {bytes rest : List Byte} {i : Instr}
    (h : decodeCommand c bytes = .ok (i, rest)) :
    ∃ hd : Header, (hd.b0 ≠ c.label ∧ i = frameErrorOf hd ∧ bytes = hd.bytes ++ rest) ∨
      (hd.b0 = c.label ∧ ∃ pl : List Byte, pl.length = hd.lengthField.toNat ∧
        i = classify c ⟨hd.b0, hd.b1, hd.lengthField, hd.argTag⟩ pl ∧ bytes = hd.bytes ++ (pl ++ rest)) := by
  unfold decodeCommand at h
  split at h
  case h_1 => cases h
  case h_2 hd tail ht =>
    obtain rfl := takeHeader_eq_some.1 ht
    refine ⟨hd, ?_⟩
    by_cases hl : hd.b0 = c.label
    · simp only [decodePacket_some hl] at h
      split at h
      · cases h
      · cases h
        exact .inr ⟨hl, _, List.length_take_of_le (by omega), rfl, by rw [List.take_append_drop]⟩
    · simp only [decodePacket_none hl] at h
      cases h
      exact .inl ⟨hl, rfl, rfl⟩

/-! ## The block's own frames (R109) -/

/-- A bulk reply that fits the length field declares a payload (R109, R243). -/
theorem bulkLength_ne_zero {c : Config} (h0 : 0 < c.ringSize) (h1 : 4 * c.ringSize ≤ 65535) : c.bulkLength ≠ 0 := by
  intro h
  have : 4 * c.ringSize % 65536 = 0 := by simpa [Config.bulkLength] using congrArg BitVec.toNat h
  omega

/-- The four reply headers differ in their code, the two with code `'o'` in their length. -/
theorem classifyReply_header {c : Config} {i : Instr} (hw : i.wellFormed c = true)
    (hd : i.direction = .deviceToHost) : classifyReply c (i.header c) = some i := by
  obtain ⟨hk8, hko, -, h8o, -, -⟩ := codes_differ
  cases i with
  | replyLiveness => exact if_pos rfl
  | replyVersion =>
    have hk : versionReply c ≠ livenessEcho c := ne_of_apply_ne Header.b1 hk8.symm
    exact (if_neg hk).trans (if_pos rfl)
  | replyRunAck =>
    have hk : runAck c ≠ livenessEcho c := ne_of_apply_ne Header.b1 hko.symm
    have h8 : runAck c ≠ versionReply c := ne_of_apply_ne Header.b1 h8o.symm
    exact (if_neg hk).trans ((if_neg h8).trans (if_pos rfl))
  | replyBulk intra interval =>
    obtain ⟨h0, h1⟩ := of_decide_eq_true hw
    have hk : bulkHeader c intra interval ≠ livenessEcho c := ne_of_apply_ne Header.b1 hko.symm
    have h8 : bulkHeader c intra interval ≠ versionReply c := ne_of_apply_ne Header.b1 h8o.symm
    have ho : bulkHeader c intra interval ≠ runAck c := fun h => bulkLength_ne_zero h0 h1 (mkHeader_inj.1 h).2.2.1
    have ha : le16 (bulkHeader c intra interval).b4 (bulkHeader c intra interval).b5 = intra := le16_bytes intra
    have hb : le16 (bulkHeader c intra interval).b6 (bulkHeader c intra interval).b7 = interval := le16_bytes interval
    simp [classifyReply, Instr.header, hk, h8, ho, ha, hb]
  | _ => cases hd

/-- A reply carries no payload of its own: a bulk reply's comes from the rings (R174). -/
theorem payload_eq_nil_of_reply {i : Instr} (hd : i.direction = .deviceToHost) : i.payload = [] := by
  cases i with
  | replyLiveness | replyVersion | replyRunAck | replyBulk intra interval => rfl
  | _ => cases hd

theorem decodeReply_encode {c : Config} {i : Instr} (rest : List Byte) (hw : i.wellFormed c = true)
    (hd : i.direction = .deviceToHost) : decodeReply c (encode c i ++ rest) = .ok (i, rest) := by
  simp [decodeReply, encode, payload_eq_nil_of_reply hd, classifyReply_header hw hd]

/-! ## The round trip -/

/-- Settles O8: one round trip per direction. -/
theorem decodeOfEncode : Obligations.DecodeOfEncode := by
  intro c i rest hw
  cases hd : i.direction with
  | hostToDevice => exact decodeCommand_encode rest hw hd
  | deviceToHost => exact decodeReply_encode rest hw hd

/-- Settles O9: the header the frame was read from is the instruction's own, in both ways a frame decodes. -/
theorem encodeOfDecode : Obligations.EncodeOfDecode := by
  intro c bytes rest i h
  obtain ⟨hd, ⟨hl, rfl, rfl⟩ | ⟨hl, pl, hlen, rfl, rfl⟩⟩ := decodeCommand_eq_ok h
  · refine ⟨?_, decide_eq_true hl, rfl⟩
    rw [encode, header_frameErrorOf, frameErrorOf, Instr.payload, List.append_nil]
  · have hok : payloadOk pl := by have := hd.lengthField.isLt; omega
    have hhead : mkHeader c.label hd.b1 (BitVec.ofNat 16 pl.length) hd.argTag = hd := by
      rw [hlen, BitVec.ofNat_toNat, BitVec.setWidth_eq, ← hl, mkHeader_fields]
    refine ⟨?_, wellFormed_classify c _ hok, Machine.classify_direction c _ pl⟩
    rw [encode, header_classify, payload_classify, hhead, List.append_assoc]

/-! ## The opcode table's rows as conditions on the header's fields (R102) -/

theorem append_inj {m n : Nat} {x x' : BitVec m} {y y' : BitVec n} : x ++ y = x' ++ y' ↔ x = x' ∧ y = y' := by
  refine ⟨fun h => ⟨?_, ?_⟩, by rintro ⟨rfl, rfl⟩; rfl⟩
  · simpa only [BitVec.extractLsb'_append_eq_left] using congrArg (BitVec.extractLsb' n m) h
  · simpa only [BitVec.extractLsb'_append_eq_right] using congrArg (BitVec.extractLsb' 0 n) h

theorem Header.word_inj {h k : Header} : h.word = k.word ↔ h = k := by
  refine ⟨fun e => ?_, congrArg Header.word⟩
  obtain ⟨e, e0⟩ := append_inj.1 e
  simp only [append_inj] at e
  cases h; cases k
  simp_all

@[simp] theorem Header.word_b0 (h : Header) : h.word.extractLsb' 0 8 = h.b0 := BitVec.extractLsb'_append_eq_right

@[simp] theorem Header.word_b1 (h : Header) : h.word.extractLsb' 8 8 = h.b1 := by
  rw [Header.word, BitVec.extractLsb'_append_eq_of_le (Nat.le_refl 8)]
  exact BitVec.extractLsb'_append_eq_right

/-- A mask acts on each header byte. -/
theorem Header.word_and (h m : Header) : h.word &&& m.word =
    (Header.mk (h.b0 &&& m.b0) (h.b1 &&& m.b1) (h.b2 &&& m.b2) (h.b3 &&& m.b3) (h.b4 &&& m.b4) (h.b5 &&& m.b5)
      (h.b6 &&& m.b6) (h.b7 &&& m.b7)).word := by
  unfold Header.word
  change (_ &&& _ : BitVec (8 + 8 + 8 + 8 + 8 + 8 + 8 + 8)) = _
  simp only [BitVec.and_append]

theorem byte_and_ff (b : Byte) : b &&& 0xFF#8 = b := BitVec.and_allOnes

/-- A row whose mask keeps the code byte selects the headers with its code. -/
theorem selects_code (c : Config) (h : Header) (code : Byte) :
    (RowMatch.word 0x000000000000FF00 (mkHeader 0 code 0 ⟨0, 0, 0, 0⟩).word).selects c h.word = true ↔
      h.b1 = code := by
  have hm : (0x000000000000FF00 : BitVec 64) = (⟨0, 0xFF, 0, 0, 0, 0, 0, 0⟩ : Header).word := by decide
  simp [RowMatch.selects, hm, Header.word_and, Header.word_inj, mkHeader, loByte, hiByte, byte_and_ff]

/-- A row whose mask keeps the code and tag bytes selects the headers with its code and tag. -/
theorem selects_codeTag (c : Config) (h : Header) (code : Byte) (tag : Tag) :
    (RowMatch.word 0xFFFFFFFF0000FF00 (mkHeader 0 code 0 tag).word).selects c h.word = true ↔
      h.b1 = code ∧ tagEq h.argTag tag = true := by
  have hm : (0xFFFFFFFF0000FF00 : BitVec 64) = (⟨0, 0xFF, 0, 0, 0xFF, 0xFF, 0xFF, 0xFF⟩ : Header).word := by decide
  cases tag
  simp [RowMatch.selects, hm, Header.word_and, Header.word_inj, mkHeader, loByte, hiByte, byte_and_ff, tagEq_iff,
    Header.argTag]

theorem selects_labelDiffers (c : Config) (h : Header) :
    RowMatch.labelDiffers.selects c h.word = true ↔ h.b0 ≠ c.label := by simp [RowMatch.selects]

theorem selects_codeExternal (c : Config) (h : Header) :
    RowMatch.codeExternal.selects c h.word = true ↔ h.b1 ∈ c.externalCodes := by simp [RowMatch.selects]

theorem selects_any (c : Config) (w : BitVec 64) : (RowMatch.word 0 0).selects c w = true := by simp [RowMatch.selects]

/-- The table's rows with their match words written as the code and the tag they stand for. -/
theorem opcodeRows_eq : opcodeRows =
    [("FRAME_ERROR", .labelDiffers),
     ("LIVENESS", .word 0xFFFFFFFF0000FF00 (mkHeader 0 codeK 0 Tag.nock).word),
     ("VERSION", .word 0xFFFFFFFF0000FF00 (mkHeader 0 code8 0 Tag.ver).word),
     ("OSC_RUN", .word 0xFFFFFFFF0000FF00 (mkHeader 0 codeO 0 Tag.run).word),
     ("OSC_OTHER", .word 0x000000000000FF00 (mkHeader 0 codeO 0 ⟨0, 0, 0, 0⟩).word),
     ("VOLTMETER", .word 0x000000000000FF00 (mkHeader 0 codeV 0 ⟨0, 0, 0, 0⟩).word),
     ("EXTERNAL", .codeExternal),
     ("K_OTHER", .word 0x000000000000FF00 (mkHeader 0 codeK 0 ⟨0, 0, 0, 0⟩).word),
     ("VER_OTHER", .word 0x000000000000FF00 (mkHeader 0 code8 0 ⟨0, 0, 0, 0⟩).word),
     ("UNSUPPORTED", .word 0 0)] := by decide

/-- The first selected row, one row at a time. -/
theorem find?_cons_map_fst {α β : Type} (f : α × β → Bool) (r : α × β) (rs : List (α × β)) :
    ((r :: rs).find? f).map Prod.fst = if f r = true then some r.1 else (rs.find? f).map Prod.fst := by
  rw [List.find?_cons]
  cases f r <;> rfl

/-- A header with a wrong label is row 1 of the table (R106). -/
theorem tableRow_of_label_ne {c : Config} {h : Header} (hl : h.b0 ≠ c.label) : tableRow c h = some "FRAME_ERROR" := by
  rw [tableRow, opcodeRows, find?_cons_map_fst, if_pos ((selects_labelDiffers c h).2 hl)]

/-- The table's later rows, tried in order, are R106's own conditions in R106's order. -/
theorem tableRow_of_label {c : Config} {h : Header} (hl : h.b0 = c.label) (pl : List Byte) :
    tableRow c h = some (classify c ⟨h.b0, h.b1, h.lengthField, h.argTag⟩ pl).mnemonic := by
  rw [tableRow, opcodeRows_eq, find?_cons_map_fst, if_neg (by simpa [selects_labelDiffers] using hl)]
  simp only [find?_cons_map_fst, selects_code, selects_codeTag, selects_codeExternal, selects_any, if_true, classify,
    apply_ite Instr.mnemonic, apply_ite some]
  rfl

/-- Settles O13: the table's first row is the label check, the rows after it are the selection. -/
theorem decoderAgreesWithOpcodeTable : Obligations.DecoderAgreesWithOpcodeTable := by
  intro c h pl hlen
  by_cases hl : h.b0 = c.label
  · exact ⟨_, [], by simpa [decode] using decodeCommand_header hl pl [] hlen, tableRow_of_label hl pl⟩
  · exact ⟨_, pl, decodeCommand_frameError hl pl, tableRow_of_label_ne hl⟩

/-! ## The spec's own words -/

/-- Settles O16: seven closed words, each decoded by evaluation. -/
theorem specWordsDecode : Obligations.SpecWordsDecode := by
  unfold Obligations.SpecWordsDecode
  decide

end Sys2Proof

/-! # The packet codec (R141 to R147) -/

namespace Sys2Proof

@[simp] theorem decodePacket_encodeCtrl (c : Config) (code : Byte) (arg : Tag) :
    decodePacket c (encodeCtrl c code arg) = some ⟨c.label, code, 0, arg⟩ := decodePacket_mkHeader c code 0 arg

@[simp] theorem decodePacket_encodeBulk (c : Config) (code : Byte) (n : U16) (m : Tag) :
    decodePacket c (encodeBulk c code n m) = some ⟨c.label, code, n, m⟩ := decodePacket_mkHeader c code n m

/-- Settles O10: each encoder writes the packet's own fields, the control encoder the length 0. -/
theorem packetRoundTrip : Obligations.PacketRoundTrip := by
  rintro c ⟨label, code, n, arg⟩ payload (rfl : label = c.label)
  constructor
  · rintro (rfl : n = 0)
    exact decodePacket_encodeCtrl c code arg
  · intro _
    exact ⟨decodePacket_encodeBulk c code n arg, takeHeader_bytes _ payload⟩

/-- Settles O11: the two sides of the label check, with the length field read low byte first. -/
theorem decodePacketFields : Obligations.DecodePacketFields := by
  intro c h
  constructor
  · exact decodePacket_none
  · intro hl
    exact ⟨_, decodePacket_some hl, rfl, rfl, le16_toNat h.b2 h.b3, rfl⟩

/-- Settles O12: the instruction is the FRAME_ERROR of the header itself. -/
theorem frameErrorConsumesTheHeader : Obligations.FrameErrorConsumesTheHeader :=
  fun _ h rest hl => ⟨frameErrorOf h, decodeCommand_frameError hl rest, rfl⟩

/-- Settles O15: `tag_eq` decides equality of tags, and a tag is its four bytes. -/
theorem tagEqualityIsBytewise : Obligations.TagEqualityIsBytewise := by
  rintro ⟨a0, a1, a2, a3⟩ ⟨b0, b1, b2, b3⟩
  rw [tagEq_iff, Tag.mk.injEq]

end Sys2Proof

namespace Sys2Proof.Machine

/-- A waiting reply is a frame `encode_ctrl` built (R109, R143). -/
theorem State.ReplyInv.exists_eq_encodeCtrl {s : State} {h : Header} (hs : s.ReplyInv) (hr : s.mlReply = some h) :
    ∃ code arg, h = encodeCtrl s.cfg code arg := by
  obtain hk | h8 | ho := hs.known h hr
  · exact ⟨codeK, Tag.nock, hk⟩
  · exact ⟨code8, s.cfg.version, h8⟩
  · exact ⟨codeO, Tag.run, ho⟩

/-- Settles O14: both encoders write `LABEL`, and the control encoder built every waiting reply. -/
theorem sentFramesPassTheLabelCheck : Obligations.SentFramesPassTheLabelCheck := by
  refine ⟨fun c code arg => ?_, fun c code n m => ?_, fun s h hs hr => ?_⟩
  · exact ne_of_eq_of_ne (decodePacket_encodeCtrl _ _ _) (Option.some_ne_none _)
  · exact ne_of_eq_of_ne (decodePacket_encodeBulk _ _ _ _) (Option.some_ne_none _)
  · obtain ⟨code, arg, rfl⟩ := hs.reply.exists_eq_encodeCtrl hr
    exact ne_of_eq_of_ne (decodePacket_encodeCtrl _ _ _) (Option.some_ne_none _)

end Sys2Proof.Machine

/-! # What the receive side's moves answer (R161 to R170) -/

namespace Sys2Proof.Machine

section receive

variable {s t : State}

/-- A handler run is its body, on the state with the pending bit cleared (R296, R297). -/
theorem moveBody_isr (x : IntSource) (s : State) : moveBody (.isr x) s = handlerBody x (s.clearPend x) :=
  returned_eq _

theorem runMove_isr (x : IntSource) (s : State) (hp : s.pending x = true) :
    runMove (.isr x) s = handlerBody x (s.clearPend x) :=
  (runMove_enabled (e := .isr x) hp).trans (moveBody_isr x s)

theorem runMove_uart_header {b : Byte} {rest : List Byte} (hp : s.rxPhase = .header) (hq : s.rxFifo = b :: rest) :
    runMove .uart s = (uartHeader b { s with rxFifo := rest }).outcome := by
  rw [runMove_enabled (by simp [State.enabled, State.rxArmed, hp, hq]), moveBody]
  simp only [uartMove, hq, hp]

theorem runMove_uart_payload {b : Byte} {rest : List Byte} (hp : s.rxPhase = .payload) (hq : s.rxFifo = b :: rest) :
    runMove .uart s = (uartPayload b { s with rxFifo := rest }).outcome := by
  rw [runMove_enabled (by simp [State.enabled, State.rxArmed, hp, hq]), moveBody]
  simp only [uartMove, hq, hp]

/-- With an empty queue or no armed transfer the receive DMA's move is not enabled (R162, R163). -/
theorem runMove_uart_disabled (h : s.rxFifo = [] ∨ s.rxPhase ≠ .header ∧ s.rxPhase ≠ .payload) :
    runMove .uart s = .next s := by
  apply runMove_disabled
  obtain hq | ⟨hh, hp⟩ := h
  · simp [State.enabled, hq]
  · simp [State.enabled, State.rxArmed, hh, hp]

/-! ## The receive handler -/

/-- A completed header with a wrong label is the instruction FRAME_ERROR (R164). -/
theorem rxHandler_of_label_ne {h : Header} (hp : s.rxPhase = .headerDone) (hread : s.readRxHeader = .value h.bytes)
    (hl : h.b0 ≠ s.cfg.label) : rxHandler s = exec (frameErrorOf h) s := by
  simp only [rxHandler, hp, hread, headerOfBytes_bytes, decodePacket_none hl]

theorem rxHandler_of_label {h : Header} (hp : s.rxPhase = .headerDone) (hread : s.readRxHeader = .value h.bytes)
    (hl : h.b0 = s.cfg.label) :
    rxHandler s = .next (acceptHeader ⟨h.b0, h.b1, h.lengthField, h.argTag⟩ s) := by
  simp only [rxHandler, hp, hread, headerOfBytes_bytes, decodePacket_some hl]

theorem rxHandler_payloadDone (hp : s.rxPhase = .payloadDone) :
    rxHandler s = .next { s with rxPhase := .off, rxFlag := true } := by
  simp only [rxHandler, hp]

/-! ## The stall mark -/

theorem State.headerPartial_iff : s.headerPartial = true ↔ s.rxPhase = .header ∧ 0 < s.rxCount := by
  simp [State.headerPartial]

theorem uartMove_rxStalled (h : (uartMove s).outcome = .next t) : t.rxStalled = s.rxStalled := by
  obtain rfl | ⟨b, rest, -, ⟨-, h⟩ | ⟨-, h⟩⟩ := uartMove_cases h
  · rfl
  · obtain ⟨-, ⟨-, rfl⟩ | ⟨-, rfl⟩⟩ := uartHeader_cases h <;> rfl
  · obtain ⟨-, ⟨-, rfl⟩ | ⟨-, rfl⟩⟩ := uartPayload_cases h <;> rfl

theorem sampleIn_rxStalled {c : Chan} {v : U16} (h : (sampleIn c v s).outcome = .next t) :
    t.rxStalled = s.rxStalled := by
  obtain ⟨-, -, -, he⟩ | ⟨-, -, -, he⟩ | ⟨-, -, he⟩ | ⟨-, -, he⟩ | ⟨-, -, he⟩ :=
    sampleIn_cases c v s <;> rw [he] at h <;> cases h <;> simp

theorem sampleMove_rxStalled {v0 v1 : U16} (h : (sampleMove v0 v1 s).outcome = .next t) :
    t.rxStalled = s.rxStalled := by
  obtain h | ⟨u, h0, h1⟩ := sampleMove_cases h
  · exact sampleIn_rxStalled (Flow.outcome_eq_next.2 (.inr h))
  · exact (sampleIn_rxStalled h1).trans (sampleIn_rxStalled (Flow.outcome_eq_next.2 (.inl h0)))

theorem adcHandler_rxStalled {c : Chan} (h : adcHandler c s = .next t) : t.rxStalled = s.rxStalled := by
  obtain ⟨-, rfl⟩ | ⟨-, -, rfl⟩ | ⟨-, -, hd, h⟩ := adcHandler_cases h
  · simp
  · simp
  · obtain ⟨-, rfl⟩ | ⟨-, rfl⟩ := startTx_outcome_cases h <;> simp [txStarted]

/-- Only the receive handler, the tick handler and the main loop write the stall mark (R33). -/
theorem runMove_rxStalled {e : Event} (hrx : e ≠ .isr .rx) (htick : e ≠ .isr .tick) (hml : e ≠ .ml)
    (h : runMove e s = .next t) : t.rxStalled = s.rxStalled := by
  obtain ⟨-, he⟩ | ⟨-, he⟩ := runMove_cases e s <;> rw [he] at h
  · cases e with
    | send b =>
      obtain ⟨-, rfl⟩ | rfl := hostSend_cases h <;> rfl
    | uart => exact uartMove_rxStalled h
    | txb =>
      obtain ⟨-, rfl⟩ | ⟨b, rfl⟩ := txMove_cases h <;> rfl
    | tick => cases h; rfl
    | sample v0 v1 => exact sampleMove_rxStalled h
    | isr x =>
      rw [moveBody_isr] at h
      cases x with
      | rx => exact absurd rfl hrx
      | tx => cases h; rfl
      | adc c => simpa using adcHandler_rxStalled h
      | tick => exact absurd rfl htick
    | ml => exact absurd rfl hml
  · cases h; rfl

theorem runMoves_cons {e : Event} {rest : List Event} (h : runMoves (e :: rest) s = .next t) :
    ∃ u, runMove e s = .next u ∧ runMoves rest u = .next t := by
  rw [runMoves] at h
  split at h
  · exact ⟨_, ‹_›, h⟩
  · cases h
  · cases h

theorem runMoves_rxStalled {moves : List Event} (hmoves : ∀ e ∈ moves, e ≠ .isr .rx ∧ e ≠ .isr .tick ∧ e ≠ .ml)
    (h : runMoves moves s = .next t) : t.rxStalled = s.rxStalled := by
  induction moves generalizing s with
  | nil => cases h; rfl
  | cons e rest ih =>
    obtain ⟨u, hfirst, hrest⟩ := runMoves_cons h
    obtain ⟨⟨hrx, htick, hml⟩, hmoves⟩ := List.forall_mem_cons.1 hmoves
    exact (ih hmoves hrest).trans (runMove_rxStalled hrx htick hml hfirst)

/-! ## The statements of the receive side -/

/-- Settles O4: the move is the handler's run, and the header of a wrong label decodes to its FRAME_ERROR. -/
theorem stepRunsTheFrameError : Obligations.StepRunsTheFrameError := by
  intro s rest h ha hm hpend hp hread hl
  constructor
  · exact decodeCommand_frameError hl []
  · rw [step_of_moves_cons ha hm]
    exact (runMove_isr .rx { s with moves := rest } hpend).trans (rxHandler_of_label_ne hp hread hl)

/-- Settles O23: the meaning of FRAME_ERROR is the re-arm. -/
theorem frameErrorRearmsReception : Obligations.FrameErrorRearmsReception :=
  fun _ _ _ _ _ => rfl

/-- Settles O29: a host move is always enabled; its two branches are the statement's. -/
theorem hostByteIsQueued : Obligations.HostByteIsQueued := by
  intro s b
  rw [runMove_enabled rfl, moveBody, hostSend, apply_ite Flow.outcome]
  rfl

/-- Settles O30: the armed header transfer before and at its last byte, then the move that is not enabled. -/
theorem headerByteMoves : Obligations.HeaderByteMoves := by
  refine ⟨fun s b rest hp hq hlt => ⟨fun hne => ?_, fun hlast => ?_⟩, fun s => runMove_uart_disabled⟩
  · simp [runMove_uart_header hp hq, uartHeader, hlt, hne]
  · simp [runMove_uart_header hp hq, uartHeader, hlt, hlast, State.pend]

/-- Settles O31: the armed payload transfer before and at its last byte. -/
theorem payloadByteMoves : Obligations.PayloadByteMoves := by
  intro s b rest hp hq hlt
  constructor
  · intro hne
    simp [runMove_uart_payload hp hq, uartPayload, hlt, hne]
  · intro hlast
    simp [runMove_uart_payload hp hq, uartPayload, hlt, hlast, State.pend]

/-- Settles O32: the label check, then the three ways a header with the right label goes on; and the payload's end. -/
theorem receiveHandlerByPhase : Obligations.ReceiveHandlerByPhase := by
  constructor
  · intro s h hpend hp hread
    rw [runMove_isr .rx s hpend, handlerBody]
    have hp' : (s.clearPend .rx).rxPhase = .headerDone := hp
    have hread' : (s.clearPend .rx).readRxHeader = .value h.bytes := hread
    by_cases hl : h.b0 = s.cfg.label
    · rw [rxHandler_of_label hp' hread' hl, if_neg (not_not_intro hl), acceptHeader]
      simp only [apply_ite Host.Outcome.next]
      rfl
    · rw [rxHandler_of_label_ne hp' hread' hl, if_pos hl]
      rfl
  · intro s hpend hp
    rw [runMove_isr .rx s hpend]
    exact rxHandler_payloadDone hp

/-- Settles O33: the invariant keeps reception off until the main loop is done with the frame. -/
theorem waitingFrameHoldsReception : Obligations.WaitingFrameHoldsReception := by
  intro s hs h
  have hoff : s.rxPhase = .off := h.elim (fun hf => (hs.receive.flagOff hf).1) hs.receive.mainOff
  exact ⟨hoff, runMove_uart_disabled (.inr (by simp [hoff]))⟩

/-- Settles O34: the tick move sets one bit, which changes nothing when the bit is set. -/
theorem ticksMerge : Obligations.TicksMerge := by
  intro s
  have htick : runMove .tick s = .next { s with pendTick := true } := rfl
  refine ⟨htick, fun hp => ?_⟩
  rw [htick, ← hp]

/-- Settles O35: the handler's own three branches, with the stall condition written out. -/
theorem tickHandlerDetectsStalls : Obligations.TickHandlerDetectsStalls := by
  intro s hpend
  rw [runMove_isr .tick s hpend, handlerBody, tickHandler]
  have hpart : (s.clearPend .tick).headerPartial = true ↔ s.rxPhase = .header ∧ 0 < s.rxCount :=
    State.headerPartial_iff
  simp only [hpart]
  rfl

/-- Settles O36: the first run sets the mark, the moves between keep it, so the second run resets. -/
theorem stalledHeaderIsReset : Obligations.StalledHeaderIsReset := by
  intro s t u moves hpend hp hn hclear hfirst hmoves hbetween hpendu hpu hnu
  have hmark : runMove (.isr .tick) s = .next { s with pendTick := false, rxStalled := true } := by
    rw [tickHandlerDetectsStalls s hpend, if_pos ⟨hp, hn⟩, if_neg (by simp [hclear])]
  have ht : t.rxStalled = true := by cases hmark.symm.trans hfirst; rfl
  have hu : u.rxStalled = true := (runMoves_rxStalled hmoves hbetween).trans ht
  have hreset := tickHandlerDetectsStalls u hpendu
  rw [if_pos ⟨hpu, hnu⟩, if_pos hu] at hreset
  exact ⟨_, hreset, rfl, rfl, rfl, rfl⟩

end receive

end Sys2Proof.Machine

/-! # What the transmit side's moves and the reply rows answer (R172 to R175, R209, R241) -/

namespace Sys2Proof.Machine

section send

variable {s t : State}

/-! ## The reply rows -/

/-- A control reply row is M2 on its header (R209). -/
theorem exec_controlReply {i : Instr} (hi : i = .replyLiveness ∨ i = .replyVersion ∨ i = .replyRunAck) (s : State) :
    exec i s = (sendReply (i.header s.cfg) s).outcome := by
  obtain rfl | rfl | rfl := hi <;> rfl

/-- The reply rows are the three control replies and the bulk reply, whose meaning is a transmit start (R241). -/
theorem exec_reply_cases {i : Instr} (hd : i.direction = .deviceToHost) (s : State) :
    exec i s = (sendReply (i.header s.cfg) s).outcome ∨
      exec i s = (startTx (i.header s.cfg) true (4 * s.cfg.ringSize) s).outcome := by
  cases i with
  | replyLiveness | replyVersion | replyRunAck => exact .inl (exec_controlReply (by simp) s)
  | replyBulk intra interval => exact .inr rfl
  | _ => cases hd

/-- Everything a reply row can do: the overlap fault, or its header's transmit and the main loop's next phase. -/
theorem exec_reply_eq_next {i : Instr} (hd : i.direction = .deviceToHost) (h : exec i s = .next t) :
    (s.txFlag = true ∧ t = s.raise .txOverlap) ∨
      (s.txFlag = false ∧ ∃ bulk plen reply phase,
        t = { txStarted (i.header s.cfg) bulk plen s with mlReply := reply, mlPhase := phase }) := by
  obtain he | he := exec_reply_cases hd s <;> rw [he] at h
  · exact (sendReply_cases h).imp_right fun ⟨hf, ht⟩ => ⟨hf, _, _, _, _, ht⟩
  · exact (startTx_outcome_cases h).imp_right fun ⟨hf, ht⟩ => ⟨hf, _, _, _, _, ht⟩

/-- Settles O25: M2 with no transmit in flight. -/
theorem controlReplyStartsTheTransmit : Obligations.ControlReplyStartsTheTransmit := by
  intro s i hi hf
  rw [exec_controlReply hi, sendReply, startTx, if_neg (by simp [hf])]
  rfl

/-- Settles O27: `start_tx` raises the fault, and ends M2 too. -/
theorem overlappingTransmitFaults : Obligations.OverlappingTransmitFaults := by
  intro s i hd hf
  have hstart : ∀ h bulk plen, startTx h bulk plen s = .ends (s.raise .txOverlap) := fun _ _ _ => if_pos hf
  obtain he | he := exec_reply_cases hd s
  · rw [he, sendReply, hstart]
    rfl
  · rw [he, hstart]
    rfl

/-- Settles O28: a raised fault changes no other field; a started transmit writes `TXH`, the transmit fields and the
main loop's. -/
theorem repliesLeaveTheRestAlone : Obligations.RepliesLeaveTheRestAlone := by
  intro i s t hd h
  obtain ⟨hf, rfl⟩ | ⟨hf, bulk, plen, reply, phase, rfl⟩ := exec_reply_eq_next hd h
  · simp [sameReceive, sameAcquisition, sameRest, sameTransmit, sameCells, sameOtherCells, hf]
  · refine ⟨⟨rfl, rfl, rfl, rfl, rfl, rfl, rfl⟩, ⟨rfl, rfl, rfl, rfl, rfl, rfl, rfl, rfl, rfl⟩,
      ⟨rfl, rfl, rfl, rfl, rfl⟩, ⟨fun c a => by cases c <;> rfl, fun _ => rfl, fun _ => rfl⟩, rfl, rfl, fun a ha => ?_,
      fun hf' => absurd hf' (by simp [hf]), fun _ => ⟨rfl, fun a ha => ?_⟩⟩
    · exact (Mem.read_writeHeader _ _ a).trans (if_neg (by omega))
    · exact (Mem.read_writeHeader _ _ a).trans (if_pos ha)

/-! ## The transmit move -/

theorem txMove_byte {b : Byte} (hb : txByteAt s s.txPos = .byte b) : txMove s = .cont (byteSent b s) := by
  simp only [txMove, hb]
  split <;> simp_all [byteSent, State.pend]

theorem txMove_unwritten (hb : txByteAt s s.txPos = .unwritten) : txMove s = .ends (s.raise .unwritten) := by
  simp only [txMove, hb]

theorem runMove_txb (hf : s.txFlag = true) (hk : s.txPos < s.txTotal) : runMove .txb s = (txMove s).outcome := by
  rw [runMove_enabled (by simp [State.enabled, hf, hk]), moveBody]

/-- Settles O37: the byte sent and the unwritten cell; the handler; the move that is not enabled. -/
theorem transmitSendsEachByteAndEnds : Obligations.TransmitSendsEachByteAndEnds := by
  refine ⟨fun s hf hk => ⟨fun b hb => ?_, fun hu => ?_⟩, fun s hp => ?_, fun s hd => ?_⟩
  · rw [runMove_txb hf hk, txMove_byte hb, Bool.or_comm]
    rfl
  · rw [runMove_txb hf hk, txMove_unwritten hu]
    rfl
  · rw [runMove_isr .tx s hp]
    rfl
  · apply runMove_disabled
    obtain hf | hk := hd
    · simp [State.enabled, hf]
    · simp [State.enabled, hk]

/-! ## The bytes of a transmit -/

/-- The two payload bytes of a sample that was never written (R72, R174). -/
theorem txByteAt_unwrittenSample {c : Chan} {i k : Nat} (hb : s.txBulk = true) (hi : i < s.cfg.ringSize)
    (hv : (s.mem.ring c).read i = none) (hk : k = 8 + bulkBase s.cfg c + 2 * i) :
    txByteAt s k = .unwritten ∧ txByteAt s (k + 1) = .unwritten := by
  have hdiv : (2 * i + 1) / 2 = i := by omega
  subst hk
  rw [Nat.add_assoc, Nat.add_assoc, Nat.add_assoc, txByteAt_ring c hb (by omega), txByteAt_ring c hb (by omega)]
  simp [hdiv, hv]

/-- Settles O38: the header cells first, then each channel's samples from where its half of the payload starts. -/
theorem bulkPayloadOrder : Obligations.BulkPayloadOrder := by
  refine ⟨fun s k hk => ⟨fun b hb => ?_, fun hb => ?_⟩, fun s i hb hi => ?_⟩
  · simp only [txByteAt_header hk, hb]
  · simp only [txByteAt_header hk, hb]
  · exact ⟨fun v hv => txByteAt_sample (c := .c0) hb hi hv rfl, fun v hv => txByteAt_sample (c := .c1) hb hi hv rfl,
      fun hv => txByteAt_unwrittenSample (c := .c0) hb hi hv rfl,
      fun hv => txByteAt_unwrittenSample (c := .c1) hb hi hv rfl⟩

end send

end Sys2Proof.Machine

/-! # What the main-loop steps and the command rows answer (R200 to R210) -/

namespace Sys2Proof.Machine

section commands

variable {s t : State}

/-! ## Main-loop steps -/

/-- A main-loop move is its step, when no bit is pending and the phase enables it (R295). -/
theorem runMove_ml (hpend : s.anyPending = false) (hen : s.mainEnabled = true) : runMove .ml s = mainStep s :=
  runMove_enabled (e := .ml) (by simp [State.enabled, hpend, hen])

theorem runMove_ml_idle (hp : s.mlPhase = .idle) (hf : s.rxFlag = true) (hpend : s.anyPending = false) :
    runMove .ml s = mainTake s := by
  rw [runMove_ml hpend (by simp [State.mainEnabled, hp, hf])]
  simp only [mainStep, hp]

theorem runMove_ml_reply (hp : s.mlPhase = .reply) (hpend : s.anyPending = false) : runMove .ml s = mainReply s := by
  rw [runMove_ml hpend (by simp [State.mainEnabled, hp])]
  simp only [mainStep, hp]

theorem runMove_ml_rearm (hp : s.mlPhase = .rearm) (hpend : s.anyPending = false) : runMove .ml s = mainRearm s := by
  rw [runMove_ml hpend (by simp [State.mainEnabled, hp])]
  simp only [mainStep, hp]

/-- M1 on a whole frame with the right label (R200, R201). -/
theorem mainTake_frame {h : Header} {payload rest : List Byte} {i : Instr}
    (hread : s.readRxHeader = .value h.bytes) (hl : h.b0 = s.cfg.label)
    (hpl : s.readRxPayload h.lengthField.toNat = .value payload)
    (hi : decode s.cfg .hostToDevice (h.bytes ++ payload) = .ok (i, rest)) :
    mainTake s = exec i { s with rxFlag := false } := by
  have hread' : State.readRxHeader { s with rxFlag := false } = .value h.bytes := hread
  have hpl' : State.readRxPayload { s with rxFlag := false } h.lengthField.toNat = .value payload := hpl
  simp only [mainTake, hread', headerOfBytes_bytes, decodePacket_some hl, hpl', hi]

/-- A header alone that decodes as a sent frame is one of the four reply rows' (R109). -/
theorem classifyReply_of_decode {c : Config} {h : Header} {i : Instr} {rest : List Byte}
    (hi : decode c .deviceToHost h.bytes = .ok (i, rest)) : classifyReply c h = some i := by
  have htake : takeHeader h.bytes = some (h, []) := takeHeader_bytes h []
  simp only [decode, decodeReply, htake] at hi
  split at hi
  · cases hi
  · cases hi; assumption

theorem classifyReply_cases {c : Config} {h : Header} {i : Instr} (hi : classifyReply c h = some i) :
    (i = .replyLiveness ∨ i = .replyVersion ∨ i = .replyRunAck) ∨ ∃ intra interval, i = .replyBulk intra interval := by
  unfold classifyReply at hi
  split_ifs at hi <;> cases hi <;> simp

/-- M2 on a waiting reply whose header is a control reply's executes that row (R209). -/
theorem mainReply_control {h : Header} {i : Instr} (hr : s.mlReply = some h) (hc : classifyReply s.cfg h = some i)
    (hi : i = .replyLiveness ∨ i = .replyVersion ∨ i = .replyRunAck) : mainReply s = exec i s := by
  rw [mainReply_some hr, exec_controlReply hi, classifyReply_eq_some hc]

/-- Settles O3: the move is M1, whose reads and decoding the hypotheses give. -/
theorem stepRunsTheReceivedCommand : Obligations.StepRunsTheReceivedCommand := by
  intro s rest h payload i ha hm hp hf hpend hread hl hpl hi
  have hmove : runMove .ml { s with moves := rest } = mainTake { s with moves := rest } := runMove_ml_idle hp hf hpend
  rw [step_of_moves_cons ha hm, hmove]
  exact mainTake_frame (s := { s with moves := rest }) hread hl hpl hi

/-- Settles O5: the move is M2, and a header that decodes to a control reply is that reply's own. -/
theorem stepRunsTheWaitingReply : Obligations.StepRunsTheWaitingReply := by
  intro s rest h i ha hm hp hpend hr hdec hbulk
  have hmove : runMove .ml { s with moves := rest } = mainReply { s with moves := rest } := runMove_ml_reply hp hpend
  have hclass := classifyReply_of_decode hdec
  have hcontrol := (classifyReply_cases hclass).resolve_right fun ⟨intra, interval, he⟩ => hbulk intra interval he
  rw [step_of_moves_cons ha hm, hmove]
  exact mainReply_control (s := { s with moves := rest }) hr hclass hcontrol

/-- Settles O40: the two moves that are not enabled, then M2 without a reply, then M3. -/
theorem mainLoopWaitsAndRearms : Obligations.MainLoopWaitsAndRearms := by
  refine ⟨fun s hpend => ?_, fun s hp hf => ?_, fun s hp hpend hr => ?_, fun s hp hpend => ?_⟩
  · exact runMove_disabled (by simp [State.enabled, hpend])
  · exact runMove_disabled (by simp [State.enabled, State.mainEnabled, hp, hf])
  · rw [runMove_ml_reply hp hpend]
    simp only [mainReply, hr]
  · exact runMove_ml_rearm hp hpend

/-! ## A frame laid down for the next step -/

/-- A frame with the right label that fits the buffer lies where M1 takes it. -/
theorem placeFrame_fits {h : Header} {payload : List Byte} (hl : h.b0 = s.cfg.label)
    (hfit : payload.length ≤ s.cfg.rxPayloadMax) :
    placeFrame h payload s = { s with
      mem := { s.mem with rxh := s.mem.rxh.writeList 0 h.bytes, rxp := s.mem.rxp.writeList 0 payload }
      rxPhase := .off
      rxFlag := true
      mlPhase := .idle
      pendRx := false
      pendTx := false
      pendTick := false
      ch0 := { s.ch0 with pendAdc := false }
      ch1 := { s.ch1 with pendAdc := false }
      moves := .ml :: s.moves } :=
  if_pos ⟨hl, hfit⟩

/-- Settles O7: the placed state meets the hypotheses of O3, since the bytes written read back. -/
theorem placedFrameRunsNext : Obligations.PlacedFrameRunsNext := by
  intro s h payload ha hl hlen hfit
  have hdec : decode s.cfg .hostToDevice (h.bytes ++ payload) =
      .ok (classify s.cfg ⟨h.b0, h.b1, h.lengthField, h.argTag⟩ payload, []) := by
    simpa [decode] using decodeCommand_header hl payload [] hlen
  have hpl : (s.mem.rxp.writeList 0 payload).cells s.cfg.rxPayloadMax 0 h.lengthField.toNat = .value payload :=
    hlen ▸ Mem.cells_writeList s.mem.rxp payload hfit
  refine ⟨_, hdec, ?_⟩
  rw [placeFrame_fits hl hfit]
  exact stepRunsTheReceivedCommand _ s.moves h payload _ ha rfl rfl rfl rfl (Mem.cells_writeHeader s.mem.rxh h) hl hpl
    hdec

/-! ## The command rows -/

/-- A row that takes no payload answers at once, or is `F_CMD_LENGTH` and nothing else (R201). -/
theorem requireLen_zero_reply (payload : List Byte) (r : State → Header) (s : State) :
    ((requireLen payload 0 s).andThen (fun u => .cont (setReply (some (r u)) u))).outcome =
      if payload = [] then .next (setReply (some (r s)) s) else .next (s.raise .cmdLength) := by
  cases payload <;> rfl

theorem exec_liveness (payload : List Byte) (s : State) : exec (.liveness payload) s =
    if payload = [] then .next (setReply (some (livenessEcho s.cfg)) s) else .next (s.raise .cmdLength) := by
  refine (requireLen_zero_reply payload (fun u => (Instr.liveness payload).header u.cfg) s).trans ?_
  cases payload <;> rfl

theorem exec_version (payload : List Byte) (s : State) : exec (.version payload) s =
    if payload = [] then .next (setReply (some (versionReply s.cfg)) s) else .next (s.raise .cmdLength) :=
  requireLen_zero_reply payload (fun u => versionReply u.cfg) s

/-- The refusal mark joins a state that has none (R290). -/
theorem State.refuse_of_none (r : RefusalName) (h : s.refused = none) :
    s.refuse r = { s with refused := some r } := by
  simp [State.refuse, h]

/-- A refusal mark that is set is never changed (R290). -/
theorem State.refuse_of_ne_none (r : RefusalName) (h : s.refused ≠ none) : s.refuse r = s := by
  obtain ⟨q, hq⟩ := Option.ne_none_iff_exists'.1 h
  simp only [State.refuse, hq, Option.getD_some]
  rw [← hq]

/-- Settles O17: a header that decodes to the empty LIVENESS is its encoding, hence the echo. -/
theorem livenessEchoesTheHeader : Obligations.LivenessEchoesTheHeader := by
  have hempty : ∀ s, exec (.liveness []) s = .next (setReply (some (livenessEcho s.cfg)) s) :=
    fun s => (exec_liveness [] s).trans (if_pos rfl)
  refine ⟨hempty, fun s h _ hdec => ?_, fun s payload hne => (exec_liveness payload s).trans (if_neg hne)⟩
  obtain ⟨henc, -, -⟩ := encodeOfDecode s.cfg h.bytes [] _ hdec
  have hecho : livenessEcho s.cfg = h := Header.bytes_inj.1 henc
  rw [hempty, hecho]
  rfl

/-- Settles O18: the two branches of the length check. -/
theorem versionReplyCarriesTheVersion : Obligations.VersionReplyCarriesTheVersion :=
  ⟨fun s => (exec_version [] s).trans (if_pos rfl),
    fun s payload hne => (exec_version payload s).trans (if_neg hne)⟩

/-- Settles O21: each of the three rows is `refuse` of its name. -/
theorem refusedRowsSetTheMark : Obligations.RefusedRowsSetTheMark := by
  intro s code arg payload
  have hexec : exec (.oscOther arg payload) s = .next (s.refuse .oscOther) ∧
      exec (.voltmeter arg payload) s = .next (s.refuse .voltmeter) ∧
      exec (.external code arg payload) s = .next (s.refuse .external) := ⟨rfl, rfl, rfl⟩
  constructor
  · intro h
    simpa only [State.refuse_of_none _ h] using hexec
  · intro h
    simpa only [State.refuse_of_ne_none _ h] using hexec

/-- Settles O22: the three rows' meaning is the end of M1 without a reply. -/
theorem unsupportedIsASilentNoOp : Obligations.UnsupportedIsASilentNoOp :=
  fun _ _ _ _ => ⟨rfl, rfl, rfl⟩

/-- OSC_RUN raises a fault and does nothing else, or starts the acquisition and acknowledges it (R204). -/
theorem execOscRun_cases {payload : List Byte} (h : execOscRun payload s = .next t) :
    (∃ f, t = s.raise f) ∨ ∃ interval l r, t = setReply r (acquireStart interval l s) := by
  unfold execOscRun at h
  split at h
  · cases h
    exact .inl ⟨_, rfl⟩
  · rename_i o _
    obtain ⟨f, -, he⟩ | ⟨-, -, -, he⟩ := acquire_cases o.interval o.length s <;> rw [he] at h <;> cases h
    · exact .inl ⟨f, rfl⟩
    · exact .inr ⟨_, _, _, rfl⟩

/-- Everything a command row that M1 dispatches can do, with the rows that can do it (R201 to R208). -/
theorem exec_command_eq_next {i : Instr} (hd : i.direction = .hostToDevice) (hm : i.mnemonic ≠ "FRAME_ERROR")
    (h : exec i s = .next t) :
    (i.mnemonic ∈ ["LIVENESS", "VERSION", "OSC_RUN"] ∧ ∃ f, t = s.raise f) ∨
      (i.mnemonic ∈ ["OSC_OTHER", "VOLTMETER", "EXTERNAL"] ∧ ∃ r, t = s.refuse r) ∨
      (∃ r, t = setReply r s) ∨
      (i.mnemonic = "OSC_RUN" ∧ ∃ interval l r, t = setReply r (acquireStart interval l s)) := by
  cases i with
  | frameError label code length arg => exact absurd rfl hm
  | liveness payload =>
    rw [exec_liveness] at h
    split at h <;> cases h
    · exact .inr (.inr (.inl ⟨_, rfl⟩))
    · exact .inl ⟨by simp [Instr.mnemonic], _, rfl⟩
  | version payload =>
    rw [exec_version] at h
    split at h <;> cases h
    · exact .inr (.inr (.inl ⟨_, rfl⟩))
    · exact .inl ⟨by simp [Instr.mnemonic], _, rfl⟩
  | oscRun payload =>
    obtain hf | hstart := execOscRun_cases h
    · exact .inl ⟨by simp [Instr.mnemonic], hf⟩
    · exact .inr (.inr (.inr ⟨rfl, hstart⟩))
  | oscOther arg payload => cases h; exact .inr (.inl ⟨by simp [Instr.mnemonic], _, rfl⟩)
  | voltmeter arg payload => cases h; exact .inr (.inl ⟨by simp [Instr.mnemonic], _, rfl⟩)
  | external code arg payload => cases h; exact .inr (.inl ⟨by simp [Instr.mnemonic], _, rfl⟩)
  | kOther arg payload => cases h; exact .inr (.inr (.inl ⟨_, rfl⟩))
  | verOther arg payload => cases h; exact .inr (.inr (.inl ⟨_, rfl⟩))
  | unsupported code arg payload => cases h; exact .inr (.inr (.inl ⟨_, rfl⟩))
  | replyLiveness | replyVersion | replyRunAck | replyBulk intra interval => cases hd

/-- What no command row that M1 dispatches changes, whatever it does (R201 to R208). -/
theorem exec_command_frame {i : Instr} (hd : i.direction = .hostToDevice) (hm : i.mnemonic ≠ "FRAME_ERROR")
    (h : exec i s = .next t) :
    sameReceive s t ∧ sameTransmit s t ∧ sameRest s t ∧ sameCells s t ∧
      ∀ c, (t.chan c).pendAdc = (s.chan c).pendAdc := by
  obtain ⟨-, f, rfl⟩ | ⟨-, r, rfl⟩ | ⟨r, rfl⟩ | ⟨-, interval, l, r, rfl⟩ := exec_command_eq_next hd hm h <;>
    refine ⟨by simp [sameReceive], by simp [sameTransmit], by simp [sameRest], by simp [sameCells, sameOtherCells],
      fun c => ?_⟩ <;>
    cases c <;> rfl

theorem sameAcquisition_refl (s : State) : sameAcquisition s s := by simp [sameAcquisition]

/-- Settles O24: a raised or refused command changes one mark, an answered one the main loop's fields; only OSC_RUN
starts an acquisition, and then, as with every reply, `ml_phase` is REPLY. -/
theorem commandsLeaveTheRestAlone : Obligations.CommandsLeaveTheRestAlone := by
  intro i s t hd hm h
  obtain ⟨hrx, htx, hrest, hcells, hpend⟩ := exec_command_frame hd hm h
  have hacq := sameAcquisition_refl s
  refine ⟨hrx, htx, hrest, hcells, ?_⟩
  obtain ⟨hrow, f, rfl⟩ | ⟨hrow, r, rfl⟩ | ⟨r, rfl⟩ | ⟨hrow, interval, l, r, rfl⟩ := exec_command_eq_next hd hm h
  · exact ⟨fun _ => hacq, hpend, fun hn => absurd hrow hn, fun _ => rfl, fun _ _ => ⟨rfl, hacq⟩⟩
  · exact ⟨fun _ => hacq, hpend, fun _ => rfl, fun hn => absurd hrow hn, fun _ _ => ⟨rfl, hacq⟩⟩
  · exact ⟨fun _ => hacq, hpend, fun _ => rfl, fun _ => rfl, fun hp hne => absurd hp.symm hne⟩
  · exact ⟨fun hn => absurd hrow hn, hpend, fun _ => rfl, fun _ => rfl, fun hp hne => absurd hp.symm hne⟩

end commands

end Sys2Proof.Machine

/-! # Window offsets and slots (R233, R247, R253) -/

namespace Sys2Proof.Machine

theorem offsetOf_formula {c : Config} (h : c.offsetFn = .formula) (l : Nat) :
    offsetOf c l = (offsetSkip c l / c.nSamples, offsetSkip c l % c.nSamples) := by
  simp only [offsetOf, h]

/-- Settles O47: `N_BLOCKS` is a power of two, so the mask keeps the remainder. -/
theorem maskIsModulo : Obligations.MaskIsModulo := by
  intro c x h
  have hmod := toNat_and_mask h x
  have hN := nBlocks_bounds h
  exact ⟨hmod, hmod ▸ Nat.mod_lt _ (by omega)⟩

/-- Settles O48: the formula as it stands, and the range every admissible offset function keeps. -/
theorem offsetsStayInRange : Obligations.OffsetsStayInRange :=
  ⟨fun _ l h => offsetOf_formula h l, fun _ _ h hl => offsetOf_rowOk h hl⟩

/-- Settles O49: block and intra-block offset make up the skipped samples, which with half a window reach the centre. -/
theorem windowCentreIsFixed : Obligations.WindowCentreIsFixed := by
  intro c l hadm hf hl
  obtain ⟨-, -, ⟨hwe, -⟩, -⟩ := hadm
  obtain ⟨-, hle, hlw⟩ := hl
  have hskip := Nat.div_add_mod' (offsetSkip c l) c.nSamples
  have hhalf : offsetSkip c l + l / 2 = c.pre + c.window / 2 := by
    simp only [offsetSkip]
    omega
  simp only [offsetOf_formula hf, Nat.add_one_mul]
  omega

end Sys2Proof.Machine

/-! # What the acquisition's moves and its two instructions answer (R231 to R242) -/

namespace Sys2Proof.Machine

section acquisition

variable {s t : State} {c : Chan}

/-- A property of both channels, from either one's side. -/
theorem Chan.forall_iff (c : Chan) {p : Chan → Prop} : (∀ d, p d) ↔ p c ∧ p c.other := by
  cases c
  · exact ⟨fun h => ⟨h _, h _⟩, fun h d => by cases d; exacts [h.1, h.2]⟩
  · exact ⟨fun h => ⟨h _, h _⟩, fun h d => by cases d; exacts [h.2, h.1]⟩

/-! ## OSC_RUN -/

/-- The checks of `acquire` in their order, then the start (R231). -/
theorem acquire_eq (interval l : U16) (s : State) : acquire interval l s =
    if s.acqBusy = true then .ends (s.raise .acqBusy)
    else if interval = 0 then .ends (s.raise .interval)
    else if s.cfg.admitsLength l.toNat then .cont (acquireStart interval l s)
    else .ends (s.raise .window) := by
  unfold acquire acquireChecks
  split_ifs <;> rfl

theorem exec_oscRun_of_length_ne {payload : List Byte} (h : payload.length ≠ 4) (s : State) :
    exec (.oscRun payload) s = .next (s.raise .cmdLength) := by
  simp only [exec, execOscRun, runOperands_none.2 h, Flow.outcome_ends]

/-- OSC_RUN on its 4 operand bytes: `acquire`, then the acknowledgement (R204). -/
theorem exec_oscRun (p0 p1 p2 p3 : Byte) (s : State) : exec (.oscRun [p0, p1, p2, p3]) s =
    ((acquire (le16 p0 p1) (le16 p2 p3) s).andThen (fun u => .cont (setReply (some (runAck u.cfg)) u))).outcome :=
  rfl

/-- Settles O20: the length check, then the branches of `acquire`; the last is the refused window length. -/
theorem oscRunFaultsInOrder : Obligations.OscRunFaultsInOrder := by
  refine ⟨fun s payload h => exec_oscRun_of_length_ne h s, fun s p0 p1 p2 p3 => ?_⟩
  have hwindow : ((le16 p2 p3).toNat = 0 ∨ (le16 p2 p3).toNat % 2 ≠ 0 ∨ s.cfg.window < (le16 p2 p3).toNat) ↔
      ¬ s.cfg.admitsLength (le16 p2 p3).toNat := by
    simp only [Config.admitsLength]
    omega
  rw [exec_oscRun, acquire_eq]
  simp only [hwindow, ite_not]
  split_ifs <;> rfl

/-- Settles O19: every check passes, and the start writes the fields the statement lists. -/
theorem oscRunStartsAnAcquisition : Obligations.OscRunStartsAnAcquisition := by
  intro s p0 p1 p2 p3 off intra hidle hinterval hl hoff
  rw [exec_oscRun, acquire_eq, if_neg (by simp [hidle]), if_neg hinterval, if_pos hl, acquireStart, hoff]
  rfl

/-! ## A sample -/

/-- The cell an armed channel's next sample goes to (R74, R237). -/
def State.sampleCell (s : State) (c : Chan) : Nat :=
  ringIndex s.cfg (s.chan c).blockWrite.toNat (s.chan c).dmaPos

/-- An armed channel's record after a sample, in blocks of `n` samples (R237). -/
def Channel.sampled (n : Nat) (r : Channel) : Channel :=
  if r.dmaPos + 1 = n then { r with dmaArmed := false, dmaPos := 0, pendAdc := true }
  else { r with dmaPos := r.dmaPos + 1 }

/-- The sample `v` stored by the armed channel `c` (R237). -/
def sampleStored (c : Chan) (v : U16) (s : State) : State :=
  (s.ringWrite c (s.sampleCell c) v).setChan c ((s.chan c).sampled s.cfg.nSamples)

@[simp] theorem sampleStored_cfg (c : Chan) (v : U16) (s : State) : (sampleStored c v s).cfg = s.cfg := by
  simp [sampleStored]

@[simp] theorem sampleStored_txFlag (c : Chan) (v : U16) (s : State) : (sampleStored c v s).txFlag = s.txFlag := by
  simp [sampleStored]

@[simp] theorem sampleStored_acqBusy (c : Chan) (v : U16) (s : State) : (sampleStored c v s).acqBusy = s.acqBusy := by
  simp [sampleStored]

@[simp] theorem sampleStored_timerRunning (c : Chan) (v : U16) (s : State) :
    (sampleStored c v s).timerRunning = s.timerRunning := by
  simp [sampleStored]

@[simp] theorem sampleStored_faults (c : Chan) (v : U16) (s : State) : (sampleStored c v s).faults = s.faults := by
  simp [sampleStored]

theorem sampleStored_chan (c d : Chan) (v : U16) (s : State) :
    (sampleStored c v s).chan d = if d = c then (s.chan c).sampled s.cfg.nSamples else s.chan d := by
  simp [sampleStored, State.setChan_chan]

/-- An armed channel stores its sample, if its cell is in the ring (R237). -/
theorem sampleIn_armed (v : U16) (ha : (s.chan c).dmaArmed = true) : sampleIn c v s =
    if s.sampleCell c < s.cfg.ringSize then .cont (sampleStored c v s) else .stop (.noSuchCell (.ring c)) := by
  rw [sampleIn, if_pos ha, storeSample, sampleStored, Channel.sampled]
  by_cases hlast : (s.chan c).dmaPos + 1 = s.cfg.nSamples
  · simp only [if_pos hlast, setChan_pend_adc]
    rfl
  · simp only [if_neg hlast]
    rfl

/-- An unarmed channel with blocks left is an overrun; any other discards the sample (R238). -/
theorem sampleIn_unarmed (v : U16) (ha : (s.chan c).dmaArmed = false) : sampleIn c v s =
    if s.awaitsRearm c = true then .ends (s.raise (.adcOverrun c)) else .cont s :=
  if_neg (by simp [ha])

theorem State.awaitsRearm_iff : s.awaitsRearm c = true ↔
    s.acqBusy = true ∧ (s.chan c).isDone = false ∧ (s.chan c).blockCount ≠ 0 := by
  simp [State.awaitsRearm, and_assoc]

/-- A sample tick is enabled while the timer runs (R236). -/
theorem runMove_sample (v0 v1 : U16) (s : State) : runMove (.sample v0 v1) s =
    if s.timerRunning = true then ((sampleIn .c0 v0 s).andThen (sampleIn .c1 v1)).outcome else .next s :=
  rfl

/-- A tick with both channels armed stores both conversions (R236, R237). -/
theorem runMove_sample_armed (v0 v1 : U16) (ht : s.timerRunning = true) (ha : ∀ d, (s.chan d).dmaArmed = true)
    (hi : ∀ d, s.sampleCell d < s.cfg.ringSize) :
    runMove (.sample v0 v1) s = .next (sampleStored .c1 v1 (sampleStored .c0 v0 s)) := by
  have hcell : (sampleStored .c0 v0 s).sampleCell .c1 = s.sampleCell .c1 := by
    simp [State.sampleCell, sampleStored_chan]
  rw [runMove_sample, if_pos ht, sampleIn_armed v0 (ha .c0), if_pos (hi .c0), Flow.andThen_cont,
    sampleIn_armed v1 (by simpa [sampleStored_chan] using ha .c1), hcell, if_pos (by simpa using hi .c1),
    Flow.outcome_cont]

/-- Each record moves on (R237). -/
theorem tickStored_chan (v0 v1 : U16) (s : State) (c : Chan) :
    (sampleStored .c1 v1 (sampleStored .c0 v0 s)).chan c = (s.chan c).sampled s.cfg.nSamples := by
  cases c <;> simp [sampleStored_chan]

/-- Each ring is written at its channel's own cell (R237). -/
theorem tickStored_read (v : Chan → U16) (s : State) (c : Chan) (a : Nat) :
    ((sampleStored .c1 (v .c1) (sampleStored .c0 (v .c0) s)).mem.ring c).read a =
      if a = s.sampleCell c then some (v c) else (s.mem.ring c).read a := by
  cases c
  · exact Mem.read_write s.mem.ring0 _ a _
  · exact Mem.read_write s.mem.ring1 _ a _

/-- Settles O43: the tick's two samples in their order, and the two ways of `sample_in`. -/
theorem sampleReachesItsChannel : Obligations.SampleReachesItsChannel := by
  refine ⟨fun s v0 v1 => runMove_sample v0 v1 s, fun s c v ha hi => ?_, fun s c v ha => ?_⟩
  · rw [sampleIn_armed v ha]
    exact if_pos hi
  · simp only [sampleIn_unarmed v ha, State.awaitsRearm_iff]

/-- Settles O42: each channel's ring is written at its own cell, and the record moves on. -/
theorem sampleTickStoresBothChannels : Obligations.SampleTickStoresBothChannels := by
  intro s v0 v1 ht ha0 ha1 hi0 hi1
  refine ⟨_, runMove_sample_armed v0 v1 ht ((Chan.forall_iff .c0).2 ⟨ha0, ha1⟩)
    ((Chan.forall_iff .c0).2 ⟨hi0, hi1⟩), ?_, ?_, rfl, rfl, rfl⟩
  · exact fun a => Mem.read_write s.mem.ring0 _ a v0
  · exact fun a => Mem.read_write s.mem.ring1 _ a v1

/-! ## REPLY_BULK and the channel handlers -/

/-- REPLY_BULK is the transmit start of the bulk header and both rings (R241, R242). -/
theorem exec_replyBulk (intra interval : U16) (s : State) : exec (.replyBulk intra interval) s =
    if s.txFlag = true then .next (s.raise .txOverlap)
    else .next (txStarted (bulkHeader s.cfg intra interval) true (4 * s.cfg.ringSize) s) := by
  rw [exec, execReplyBulk, startTx]
  split <;> rfl

/-- Settles O26: the transmit start with the bulk header, byte by byte. -/
theorem bulkReplyStartsTheTransmit : Obligations.BulkReplyStartsTheTransmit :=
  fun s intra interval hf => (exec_replyBulk intra interval s).trans (if_neg (by simp [hf]))

/-- A channel's record after its handler: done, or armed for the next block (R239, R240). -/
def Channel.handled (cfg : Config) (r : Channel) : Channel :=
  if r.blockCount = 0 then { r with pendAdc := false, isDone := true }
  else { r with
    pendAdc := false
    blockWrite := nextSlot cfg r.blockWrite
    dmaPos := 0
    dmaArmed := true
    blockCount := r.blockCount - 1 }

theorem Channel.handled_of_count_eq {cfg : Config} {r : Channel} (h : r.blockCount = 0) :
    r.handled cfg = { r with pendAdc := false, isDone := true } := if_pos h

theorem Channel.handled_of_count_ne {cfg : Config} {r : Channel} (h : r.blockCount ≠ 0) : r.handled cfg = { r with
    pendAdc := false
    blockWrite := nextSlot cfg r.blockWrite
    dmaPos := 0
    dmaArmed := true
    blockCount := r.blockCount - 1 } := if_neg h

/-- Channel `c`'s record replaced by what its handler makes of it. -/
def channelHandled (c : Chan) (s : State) : State := s.setChan c ((s.chan c).handled s.cfg)

/-- A run of a channel handler: the record is handled, and the second channel to finish executes REPLY_BULK with the
acquisition ended (R239 to R241). -/
theorem runMove_adc (hp : (s.chan c).pendAdc = true) : runMove (.isr (.adc c)) s =
    if (s.chan c).blockCount = 0 ∧ (s.chan c.other).isDone = true then
      exec (.replyBulk s.acqIntra s.acqInterval) (endAcquisition (channelHandled c s))
    else .next (channelHandled c s) := by
  have hcount : ((s.clearPend (.adc c)).chan c).blockCount = (s.chan c).blockCount := by cases c <;> rfl
  have hother : (s.clearPend (.adc c)).chan c.other = s.chan c.other := by cases c <;> rfl
  rw [runMove_isr (.adc c) s hp, handlerBody, adcHandler, hcount, hother, markDone_clearPend, rearmChannel_clearPend,
    channelHandled]
  by_cases hz : (s.chan c).blockCount = 0
  · rw [if_pos hz, Channel.handled_of_count_eq hz]
    by_cases ho : (s.chan c.other).isDone = true
    · rw [if_pos ho, if_pos ⟨hz, ho⟩]
      cases c <;> rfl
    · rw [if_neg ho, if_neg fun h => ho h.2]
      rfl
  · rw [if_neg hz, if_neg fun h => hz h.1, Channel.handled_of_count_ne hz]

/-- Settles O44: with blocks left the handler only re-arms its channel. -/
theorem channelHandlerRearms : Obligations.ChannelHandlerRearms := by
  intro s c hp hz
  rw [runMove_adc hp, if_neg fun h => hz h.1, channelHandled, Channel.handled_of_count_ne hz]
  rfl

/-- Settles O45: the rendezvous by the other channel's done flag, then the transmit start by `tx_flag`. -/
theorem channelHandlerCompletes : Obligations.ChannelHandlerCompletes := by
  intro s c hp hz
  rw [runMove_adc hp, channelHandled, Channel.handled_of_count_eq hz]
  cases ho : (s.chan c.other).isDone
  · simp
  · rw [if_pos ⟨hz, rfl⟩, if_neg nofun, exec_replyBulk]
    cases c <;> rfl

/-- Settles O6: the step is that handler's run, with the move used up. -/
theorem stepRunsTheBulkReply : Obligations.StepRunsTheBulkReply := by
  intro s rest c ha hm hp hz ho
  have hchan : ∀ d, State.chan { s with moves := rest } d = s.chan d := by rintro (_ | _) <;> rfl
  rw [step_of_moves_cons ha hm, runMove_adc (by rwa [hchan]), hchan, hchan, if_pos ⟨hz, ho⟩, channelHandled, hchan,
    Channel.handled_of_count_eq hz]
  cases c <;> rfl

/-! ## The rendezvous -/

/-- Both handlers of the last blocks have run and the acquisition is over (R240, R241). -/
def bothDone (s : State) : State :=
  endAcquisition { s with
    ch0 := { s.ch0 with pendAdc := false, isDone := true }, ch1 := { s.ch1 with pendAdc := false, isDone := true } }

theorem runMoves_cons_next {e : Event} (rest : List Event) (h : runMove e s = .next t) :
    runMoves (e :: rest) s = runMoves rest t := by
  simp only [runMoves, h]

theorem runMoves_append_next {xs : List Event} (ys : List Event) (h : runMoves xs s = .next t) :
    runMoves (xs ++ ys) s = runMoves ys t := by
  induction xs generalizing s with
  | nil => cases h; rfl
  | cons e xs ih =>
    obtain ⟨u, hfirst, hrest⟩ := runMoves_cons h
    rw [List.cons_append, runMoves_cons_next _ hfirst, ih hrest]

theorem runMoves_singleton (e : Event) (s : State) : runMoves [e] s = runMove e s := by
  rw [runMoves]
  cases runMove e s <;> rfl

/-- Whichever of the two pending last handlers runs first, the second one hands off (R248). -/
theorem runMoves_rendezvous
    (hlast : ∀ d, (s.chan d).pendAdc = true ∧ (s.chan d).blockCount = 0 ∧ (s.chan d).isDone = false) (c : Chan) :
    runMoves [.isr (.adc c), .isr (.adc c.other)] s = exec (.replyBulk s.acqIntra s.acqInterval) (bothDone s) := by
  obtain ⟨hp, hz, -⟩ := hlast c
  obtain ⟨hpo, hzo, hdo⟩ := hlast c.other
  have hfirst : runMove (.isr (.adc c)) s = .next (channelDone c s) := by
    rw [runMove_adc hp, if_neg (by simp [hdo]), channelHandled, Channel.handled_of_count_eq hz]
    rfl
  have hother : (channelDone c s).chan c.other = s.chan c.other := State.setChan_chan_other s c _
  have hdone : ((channelDone c s).chan c.other.other).isDone = true := by cases c <;> rfl
  rw [runMoves_cons_next _ hfirst, runMoves_singleton, runMove_adc (by rwa [hother]), hother, if_pos ⟨hzo, hdone⟩,
    channelHandled, hother, Channel.handled_of_count_eq hzo]
  cases c <;> rfl

/-- Settles O46: both orders end in the same bulk reply, which starts its transmit when none is in flight. -/
theorem rendezvousInEitherOrder : Obligations.RendezvousInEitherOrder := by
  intro s hlast
  have h01 := runMoves_rendezvous hlast .c0
  have h10 := runMoves_rendezvous hlast .c1
  refine ⟨h01.trans h10.symm, fun hf => ⟨_, h01.trans ((exec_replyBulk _ _ _).trans (if_neg ?_)), ?_⟩⟩
  · simpa [bothDone] using hf
  · refine ⟨rfl, rfl, rfl, rfl, rfl, rfl, by rintro (_ | _) <;> exact ⟨rfl, rfl⟩, rfl, fun a ha => ?_⟩
    exact (Mem.read_writeHeader s.mem.txh _ a).trans (if_pos ha)

/-- Settles O58: a finished channel has written its ring, and with no block left its slot is 0. -/
theorem finishedCaptureFillsTheRings : Obligations.FinishedCaptureFillsTheRings := by
  intro s h h0 h1
  have hslot : ∀ c, (s.chan c).isDone = true → (s.chan c).blockWrite = 0 := by
    intro c hdone
    have hzero := (h.channel c).landsOnZero
    rw [(h.channel c).doneCount hdone] at hzero
    have hlt := (h.channel c).slotInRange
    exact BitVec.eq_of_toNat_eq (by simpa [Nat.mod_eq_of_lt hlt] using hzero)
  exact ⟨hslot .c0 h0, hslot .c1 h1, (h.channel .c0).ring_written h0, (h.channel .c1).ring_written h1⟩

end acquisition

end Sys2Proof.Machine

/-! # The lockstep of the two channels is kept by every step (R249)

Without a fault the two channel records are equal, or one of them is pending and the other is what the handler makes
of it. -/

namespace Sys2Proof.Machine

section lockstep

variable {s t u : State} {c : Chan}

/-! ## Lockstep in terms of one channel's record -/

/-- A channel record in an acquisition that its handler has not finished: armed, or pending at the end of a block. -/
structure Channel.Running (r : Channel) : Prop where
  notDone : r.isDone = false
  armedOrPending : r.dmaArmed = !r.pendAdc
  atBlockEnd : r.pendAdc = true → r.dmaPos = 0

/-- Channel `c` runs, and the other channel is beside it, or `c`'s handler is still to run and the other's has. -/
def State.InStepAt (s : State) (c : Chan) : Prop :=
  (s.chan c).Running ∧
    (s.chan c.other = s.chan c ∨ (s.chan c).pendAdc = true ∧ s.chan c.other = (s.chan c).handled s.cfg)

/-- Both channels rest beside each other. -/
def State.AtRest (s : State) : Prop := s.ch1 = s.ch0 ∧ s.ch0.pendAdc = false ∧ s.ch0.dmaArmed = false

theorem Channel.eq_iff {a b : Channel} :
    a = b ↔ sameCapture a b ∧ a.pendAdc = b.pendAdc ∧ a.isDone = b.isDone := by
  cases a
  cases b
  simp only [Channel.mk.injEq, sameCapture]
  tauto

/-- Being one ahead is being handled while the other is pending. -/
theorem oneAhead_iff {cfg : Config} {a b : Channel} :
    oneAhead cfg a b ↔ b.Running ∧ b.pendAdc = true ∧ a = b.handled cfg := by
  have hrun : b.pendAdc = true → (b.Running ↔ b.dmaArmed = false ∧ b.dmaPos = 0 ∧ b.isDone = false) := by
    intro hp
    constructor
    · rintro ⟨hd, ha, hz⟩
      exact ⟨by simpa [hp] using ha, hz hp, hd⟩
    · rintro ⟨ha, hz, hd⟩
      exact ⟨hd, by simp [hp, ha], fun _ => hz⟩
  by_cases hz : b.blockCount = 0
  · rw [Channel.handled_of_count_eq hz, Channel.eq_iff]
    simp only [oneAhead, sameCapture]
    grind
  · rw [Channel.handled_of_count_ne hz, Channel.eq_iff]
    simp only [oneAhead, sameCapture]
    grind

/-- Lockstep while an acquisition runs, as it is written for the two channels. -/
theorem exists_inStepAt_iff : (∃ c, s.InStepAt c) ↔
    (sameCapture s.ch0 s.ch1 ∧ s.ch0.pendAdc = s.ch1.pendAdc ∧ s.ch0.isDone = false ∧ s.ch1.isDone = false ∧
        s.ch0.dmaArmed = !s.ch0.pendAdc ∧ (s.ch0.pendAdc = true → s.ch0.dmaPos = 0)) ∨
      oneAhead s.cfg s.ch0 s.ch1 ∨ oneAhead s.cfg s.ch1 s.ch0 := by
  have hlevel : (sameCapture s.ch0 s.ch1 ∧ s.ch0.pendAdc = s.ch1.pendAdc ∧ s.ch0.isDone = false ∧
      s.ch1.isDone = false ∧ s.ch0.dmaArmed = !s.ch0.pendAdc ∧ (s.ch0.pendAdc = true → s.ch0.dmaPos = 0)) ↔
        s.ch0.Running ∧ s.ch0 = s.ch1 := by
    constructor
    · rintro ⟨hcap, hp, hd0, hd1, ha, hz⟩
      exact ⟨⟨hd0, ha, hz⟩, Channel.eq_iff.2 ⟨hcap, hp, hd0.trans hd1.symm⟩⟩
    · rintro ⟨⟨hd, ha, hz⟩, he⟩
      obtain ⟨hcap, hp, hdd⟩ := Channel.eq_iff.1 he
      exact ⟨hcap, hp, hd, hdd ▸ hd, ha, hz⟩
  rw [hlevel, oneAhead_iff, oneAhead_iff]
  constructor
  · rintro ⟨_ | _, hr, he | ⟨hp, he⟩⟩
    · exact .inl ⟨hr, Eq.symm he⟩
    · exact .inr (.inr ⟨hr, hp, he⟩)
    · exact .inl ⟨(show s.ch0 = s.ch1 from he) ▸ hr, he⟩
    · exact .inr (.inl ⟨hr, hp, he⟩)
  · rintro (⟨hr, he⟩ | ⟨hr, hp, he⟩ | ⟨hr, hp, he⟩)
    · exact ⟨.c0, hr, .inl he.symm⟩
    · exact ⟨.c1, hr, .inr ⟨hp, he⟩⟩
    · exact ⟨.c0, hr, .inr ⟨hp, he⟩⟩

/-- Lockstep between acquisitions, as it is written for the two channels. -/
theorem atRest_iff : s.AtRest ↔ sameCapture s.ch0 s.ch1 ∧ s.ch0.isDone = s.ch1.isDone ∧ s.ch0.pendAdc = false ∧
    s.ch1.pendAdc = false ∧ s.ch0.dmaArmed = false := by
  constructor
  · rintro ⟨he, hp, ha⟩
    obtain ⟨hcap, hpp, hdd⟩ := Channel.eq_iff.1 he.symm
    exact ⟨hcap, hdd, hp, hpp ▸ hp, ha⟩
  · rintro ⟨hcap, hdd, hp0, hp1, ha⟩
    exact ⟨(Channel.eq_iff.2 ⟨hcap, hp0.trans hp1.symm, hdd⟩).symm, hp0, ha⟩

theorem lockstep_iff : s.Lockstep ↔
    (s.faults = [] → (s.acqBusy = true → ∃ c, s.InStepAt c) ∧ (s.acqBusy = false → s.AtRest)) := by
  rw [exists_inStepAt_iff, atRest_iff]
  exact ⟨fun ⟨hrun, hrest⟩ hf => ⟨hrun hf, hrest hf⟩, fun h => ⟨fun hf => (h hf).1, fun hf => (h hf).2⟩⟩

/-! ## Moves that leave the acquisition alone -/

theorem hostSend_sameAcquisition {b : Byte} (h : (hostSend b s).outcome = .next t) : sameAcquisition s t := by
  obtain ⟨-, rfl⟩ | rfl := hostSend_cases h <;> exact sameAcquisition_refl s

theorem uartMove_sameAcquisition (h : (uartMove s).outcome = .next t) : sameAcquisition s t := by
  obtain rfl | ⟨b, rest, -, ⟨-, h⟩ | ⟨-, h⟩⟩ := uartMove_cases h
  · exact sameAcquisition_refl _
  · obtain ⟨-, ⟨-, rfl⟩ | ⟨-, rfl⟩⟩ := uartHeader_cases h <;> exact sameAcquisition_refl s
  · obtain ⟨-, ⟨-, rfl⟩ | ⟨-, rfl⟩⟩ := uartPayload_cases h <;> exact sameAcquisition_refl s

theorem txMove_sameAcquisition (h : (txMove s).outcome = .next t) : sameAcquisition s t := by
  obtain ⟨-, rfl⟩ | ⟨b, rfl⟩ := txMove_cases h <;> exact sameAcquisition_refl s

theorem acceptHeader_sameAcquisition (p : Packet) (s : State) : sameAcquisition s (acceptHeader p s) := by
  obtain ⟨-, he⟩ | ⟨-, -, he⟩ | ⟨-, -, he⟩ := acceptHeader_cases p s <;> rw [he] <;> exact sameAcquisition_refl s

theorem rxHandler_sameAcquisition (h : rxHandler s = .next t) : sameAcquisition s t := by
  obtain ⟨-, -, rfl⟩ | ⟨hd, -, -, -, rfl⟩ | ⟨-, rfl⟩ | ⟨-, rfl⟩ := rxHandler_cases h
  · exact sameAcquisition_refl s
  · exact acceptHeader_sameAcquisition _ s
  · exact sameAcquisition_refl s
  · exact sameAcquisition_refl s

theorem tickHandler_sameAcquisition (h : tickHandler s = .next t) : sameAcquisition s t := by
  obtain ⟨-, rfl⟩ | ⟨b, rfl⟩ := tickHandler_cases h <;> exact sameAcquisition_refl s

theorem mainReply_sameAcquisition (h : mainReply s = .next t) : sameAcquisition s t := by
  obtain ⟨-, rfl⟩ | ⟨hd, -, h⟩ := mainReply_cases h
  · exact sameAcquisition_refl s
  · obtain ⟨-, rfl⟩ | ⟨-, rfl⟩ := sendReply_cases h <;> exact sameAcquisition_refl s

/-- An acquisition was started on an idle state. -/
def State.Started (s t : State) : Prop :=
  s.acqBusy = false ∧ ∃ interval l, sameAcquisition (acquireStart interval l s) t

theorem CommandEffect.sameAcquisition_or_started (h : CommandEffect s t) : sameAcquisition s t ∨ s.Started t := by
  cases h with
  | started interval l hidle => exact .inr ⟨hidle, interval, l, sameAcquisition_refl _⟩
  | faulted | refused | answered | rearmed => exact .inl (sameAcquisition_refl s)

theorem mainStep_sameAcquisition_or_started (h : mainStep s = .next t) : sameAcquisition s t ∨ s.Started t := by
  unfold mainStep at h
  split at h
  · obtain ⟨-, rfl⟩ | ⟨hd, -, ⟨-, rfl⟩ | h⟩ := mainTake_cases h
    · exact .inl (sameAcquisition_refl s)
    · exact .inl (sameAcquisition_refl s)
    · exact h.sameAcquisition_or_started
  · exact .inl (mainReply_sameAcquisition h)
  · cases h
    exact .inl (sameAcquisition_refl s)

/-- Only a sample tick, a channel handler and an accepted run command touch the acquisition. -/
theorem runMove_acquisition_cases {e : Event} (h : runMove e s = .next t) :
    sameAcquisition s t ∨ s.Started t ∨
      (∃ v0 v1, s.timerRunning = true ∧ (sampleMove v0 v1 s).outcome = .next t) ∨
      ∃ c, (s.chan c).pendAdc = true ∧ runMove (.isr (.adc c)) s = .next t := by
  obtain ⟨hen, he⟩ | ⟨-, he⟩ := runMove_cases e s
  · have hbody := he.symm.trans h
    cases e with
    | send b => exact .inl (hostSend_sameAcquisition hbody)
    | uart => exact .inl (uartMove_sameAcquisition hbody)
    | txb => exact .inl (txMove_sameAcquisition hbody)
    | tick => cases hbody; exact .inl (sameAcquisition_refl s)
    | sample v0 v1 => exact .inr (.inr (.inl ⟨v0, v1, hen, hbody⟩))
    | isr x =>
      rw [moveBody_isr] at hbody
      cases x with
      | rx => exact .inl (rxHandler_sameAcquisition (s := s.clearPend .rx) hbody)
      | tx => cases hbody; exact .inl (sameAcquisition_refl s)
      | adc c => exact .inr (.inr (.inr ⟨c, hen, h⟩))
      | tick => exact .inl (tickHandler_sameAcquisition (s := s.clearPend .tick) hbody)
    | ml => exact (mainStep_sameAcquisition_or_started hbody).imp_right .inl
  · cases he.symm.trans h
    exact .inl (sameAcquisition_refl s)

/-! ## What each kind of move does to the two records -/

theorem State.KeepsMarks.faults_eq_nil (h : s.KeepsMarks t) (ht : t.faults = []) : s.faults = [] :=
  List.eq_nil_iff_forall_not_mem.2 fun f hf => by simpa [ht] using h.faults f hf

/-- A move that leaves the acquisition alone keeps lockstep. -/
theorem State.Lockstep.of_sameAcquisition (h : s.Lockstep) (hk : s.KeepsMarks t) (ha : sameAcquisition s t) :
    t.Lockstep := by
  obtain ⟨h0, h1, hb, -⟩ := ha
  constructor
  · rw [h0, h1, hb, hk.cfg]
    exact fun ht => h.running (hk.faults_eq_nil ht)
  · rw [h0, h1, hb]
    exact fun ht => h.resting (hk.faults_eq_nil ht)

/-- Arming makes equal records of two channels at rest (R232). -/
theorem acquireStart_inStepAt (interval l : U16) (h : s.AtRest) : (acquireStart interval l s).InStepAt .c0 := by
  obtain ⟨he, hp, -⟩ := h
  refine ⟨⟨rfl, ?_, ?_⟩, .inl ?_⟩
  · exact (congrArg (!·) hp).symm
  · exact fun _ => rfl
  · exact congrArg (armChannel s.cfg (offsetOf s.cfg l.toNat).1) he

theorem Channel.Running.sampled {r : Channel} (h : r.Running) (ha : r.dmaArmed = true) (n : Nat) :
    (r.sampled n).Running := by
  have hp : r.pendAdc = false := by simpa [ha] using h.armedOrPending
  rw [Channel.sampled]
  split
  · exact ⟨h.notDone, rfl, fun _ => rfl⟩
  · exact ⟨h.notDone, h.armedOrPending, by simp [hp]⟩

theorem Channel.Running.handled {r : Channel} (h : r.Running) (hz : r.blockCount ≠ 0) (cfg : Config) :
    (r.handled cfg).Running := by
  rw [Channel.handled_of_count_ne hz]
  exact ⟨h.notDone, rfl, nofun⟩

/-- A tick with both channels armed, when it does not stop. -/
theorem sampleMove_eq_of_armed {v0 v1 : U16} (ha : ∀ d, (s.chan d).dmaArmed = true)
    (h : (sampleMove v0 v1 s).outcome = .next t) : t = sampleStored .c1 v1 (sampleStored .c0 v0 s) := by
  rw [sampleMove, sampleIn_armed v0 (ha .c0)] at h
  split at h
  · rw [Flow.andThen_cont, sampleIn_armed v1 (by simpa [sampleStored_chan] using ha .c1)] at h
    split at h <;> cases h
    rfl
  · cases h

/-- A tick with no channel armed or waiting for its re-arm is discarded (R238). -/
theorem sampleMove_eq_of_discarded {v0 v1 : U16} (ha : ∀ d, (s.chan d).dmaArmed = false)
    (hw : ∀ d, s.awaitsRearm d = false) (h : (sampleMove v0 v1 s).outcome = .next t) : t = s := by
  rw [sampleMove, sampleIn_unarmed v0 (ha .c0), if_neg (by simp [hw]), Flow.andThen_cont,
    sampleIn_unarmed v1 (ha .c1), if_neg (by simp [hw])] at h
  cases h
  rfl

/-- A sample changes its own channel's record only. -/
theorem sampleIn_other {v : U16} (h : (sampleIn c v s).outcome = .next t) :
    t.chan c.other = s.chan c.other ∧ t.acqBusy = s.acqBusy := by
  cases ha : (s.chan c).dmaArmed
  · rw [sampleIn_unarmed v ha] at h
    split at h <;> cases h <;> exact ⟨by cases c <;> rfl, rfl⟩
  · rw [sampleIn_armed v ha] at h
    split at h <;> cases h
    exact ⟨by simp [sampleStored_chan, Chan.other_ne], by simp⟩

theorem sampleMove_acqBusy {v0 v1 : U16} (h : (sampleMove v0 v1 s).outcome = .next t) : t.acqBusy = s.acqBusy := by
  obtain h | ⟨u, h0, h1⟩ := sampleMove_cases h
  · exact (sampleIn_other (Flow.outcome_eq_next.2 (.inr h))).2
  · exact (sampleIn_other h1).2.trans (sampleIn_other (Flow.outcome_eq_next.2 (.inl h0))).2

/-- A tick while a channel waits for its re-arm marks a fault: that channel's overrun, if not one before it (R238). -/
theorem sampleMove_faults_of_awaitsRearm {v0 v1 : U16} (ha : (s.chan c).dmaArmed = false)
    (hw : s.awaitsRearm c = true) (h : (sampleMove v0 v1 s).outcome = .next t) : t.faults ≠ [] := by
  have hover : ∀ {u : State} {v : U16}, (u.chan c).dmaArmed = false → u.awaitsRearm c = true →
      sampleIn c v u = .ends (u.raise (.adcOverrun c)) := fun ha hw => (sampleIn_unarmed _ ha).trans (if_pos hw)
  cases c with
  | c0 =>
    rw [sampleMove, hover ha hw] at h
    cases h
    exact State.raise_faults_ne_nil s _
  | c1 =>
    obtain h | ⟨u, h0, h1⟩ := sampleMove_cases h
    · cases ha0 : (s.chan .c0).dmaArmed
      · rw [sampleIn_unarmed v0 ha0] at h
        split at h <;> cases h
        exact State.raise_faults_ne_nil s _
      · rw [sampleIn_armed v0 ha0] at h
        split at h <;> cases h
    · obtain ⟨hchan, hbusy⟩ := sampleIn_other (Flow.outcome_eq_next.2 (.inl h0))
      have hchan : u.chan .c1 = s.chan .c1 := hchan
      rw [hover (by rwa [hchan]) (by rwa [State.awaitsRearm, hchan, hbusy])] at h1
      cases h1
      exact State.raise_faults_ne_nil u _

/-- Two armed channels store alike, two unarmed ones discard alike; a tick at a half-finished block boundary with
blocks left is an overrun (R237, R238). -/
theorem State.InStepAt.sampleMove {v0 v1 : U16} (h : s.InStepAt c) (hb : s.acqBusy = true)
    (hx : (sampleMove v0 v1 s).outcome = .next t) (hf : t.faults = []) : t.InStepAt c := by
  obtain ⟨hr, ho⟩ := h
  cases ha : (s.chan c).dmaArmed
  · have hz : (s.chan c).blockCount = 0 := by
      by_contra hz
      exact sampleMove_faults_of_awaitsRearm ha (State.awaitsRearm_iff.2 ⟨hb, hr.notDone, hz⟩) hx hf
    have hother : (s.chan c.other).dmaArmed = false ∧ (s.chan c.other).blockCount = 0 := by
      obtain ho | ⟨-, ho⟩ := ho
      · exact ho ▸ ⟨ha, hz⟩
      · rw [ho, Channel.handled_of_count_eq hz]
        exact ⟨ha, hz⟩
    have hdiscard := sampleMove_eq_of_discarded ((Chan.forall_iff c).2 ⟨ha, hother.1⟩)
      ((Chan.forall_iff c).2 ⟨by simp [State.awaitsRearm, hz], by simp [State.awaitsRearm, hother.2]⟩) hx
    exact hdiscard ▸ ⟨hr, ho⟩
  · have hp : (s.chan c).pendAdc = false := by simpa [ha] using hr.armedOrPending
    have ho : s.chan c.other = s.chan c := ho.resolve_right fun h => by simp [hp] at h
    have hall := (Chan.forall_iff (p := fun d => s.chan d = s.chan c) c).2 ⟨rfl, ho⟩
    have ht : ∀ d, t.chan d = (s.chan c).sampled s.cfg.nSamples := by
      intro d
      rw [sampleMove_eq_of_armed (fun d => hall d ▸ ha) hx, tickStored_chan, hall]
    exact ⟨ht c ▸ hr.sampled ha _, .inl ((ht c.other).trans (ht c).symm)⟩

/-- A run of a channel handler: its own record is handled, the other's is as it was, and the acquisition ends with the
second channel that is done (R239 to R241). -/
theorem runMove_adc_records (hp : (s.chan c).pendAdc = true) (h : runMove (.isr (.adc c)) s = .next t) :
    t.cfg = s.cfg ∧ t.chan c = (s.chan c).handled s.cfg ∧ t.chan c.other = s.chan c.other ∧
      t.acqBusy = if (s.chan c).blockCount = 0 ∧ (s.chan c.other).isDone = true then false else s.acqBusy := by
  rw [runMove_adc hp] at h
  by_cases hlast : (s.chan c).blockCount = 0 ∧ (s.chan c.other).isDone = true
  · rw [if_pos hlast, exec_replyBulk] at h
    rw [if_pos hlast]
    split at h <;> cases h <;> cases c <;> exact ⟨rfl, rfl, rfl, rfl⟩
  · rw [if_neg hlast] at h
    rw [if_neg hlast]
    cases h
    cases c <;> exact ⟨rfl, rfl, rfl, rfl⟩

theorem State.atRest_of_eq (he : s.chan c.other = s.chan c) (hp : (s.chan c).pendAdc = false)
    (ha : (s.chan c).dmaArmed = false) : s.AtRest := by
  cases c
  · exact ⟨he, hp, ha⟩
  · have he : s.ch0 = s.ch1 := he
    rw [State.AtRest, he]
    exact ⟨rfl, hp, ha⟩

/-- The handler of one of two equal records puts it one ahead. The handler of the channel behind makes the records
equal again, or ends the acquisition (R249). -/
theorem State.InStepAt.adc {d : Chan} (h : s.InStepAt c) (hb : s.acqBusy = true) (hp : (s.chan d).pendAdc = true)
    (hx : runMove (.isr (.adc d)) s = .next t) :
    (t.acqBusy = true → ∃ c, t.InStepAt c) ∧ (t.acqBusy = false → t.AtRest) := by
  obtain ⟨hcfg, hself, hother, hbusy⟩ := runMove_adc_records hp hx
  obtain ⟨hr, heq | ⟨hpc, hahead⟩⟩ := h
  · have hall := (Chan.forall_iff (p := fun e => s.chan e = s.chan c) c).2 ⟨rfl, heq⟩
    have hstays : t.acqBusy = true := by rw [hbusy, if_neg (by simp [hall, hr.notDone]), hb]
    refine ⟨fun _ => ⟨d.other, ?_, .inr ⟨?_, ?_⟩⟩, fun hend => by cases hstays.symm.trans hend⟩
    · rw [hother, hall]
      exact hr
    · rw [hother, hall, ← hall d]
      exact hp
    · rw [Chan.other_other, hself, hother, hcfg, hall d, hall d.other]
  · obtain rfl : d = c := by
      by_contra hne
      obtain rfl : d = c.other := by cases c <;> cases d <;> simp_all [Chan.other]
      rw [hahead] at hp
      simp only [Channel.handled] at hp
      split at hp <;> cases hp
    have heq : t.chan d.other = t.chan d := by rw [hself, hother, hahead]
    by_cases hz : (s.chan d).blockCount = 0
    · have hdone := Channel.handled_of_count_eq (cfg := s.cfg) hz
      have hends : t.acqBusy = false := by rw [hbusy, hahead, hdone, if_pos ⟨hz, rfl⟩]
      refine ⟨fun hstays => absurd hstays (by simp [hends]), fun _ => State.atRest_of_eq heq ?_ ?_⟩
      · rw [hself, hdone]
      · simpa [hself, hdone, hp] using hr.armedOrPending
    · have hstays : t.acqBusy = true := by rw [hbusy, if_neg fun h => hz h.1, hb]
      exact ⟨fun _ => ⟨d, hself ▸ hr.handled hz s.cfg, .inl heq⟩, fun hend => by cases hstays.symm.trans hend⟩

/-! ## The step -/

theorem runMove_lockstep {e : Event} (h : s.Inv) (hs : s.Lockstep) (hx : runMove e s = .next t) : t.Lockstep := by
  have hmarks := runMove_keepsMarks hx
  obtain hsame | ⟨hidle, interval, l, hstart⟩ | ⟨v0, v1, ht, hsample⟩ | ⟨c, hp, hadc⟩ := runMove_acquisition_cases hx
  · exact hs.of_sameAcquisition hmarks hsame
  · have hstarted : (acquireStart interval l s).Lockstep := by
      rw [lockstep_iff] at hs ⊢
      exact fun hf => ⟨fun _ => ⟨.c0, acquireStart_inStepAt interval l ((hs hf).2 hidle)⟩, nofun⟩
    exact hstarted.of_sameAcquisition ⟨hmarks.cfg, hmarks.faults, hmarks.refused⟩ hstart
  · have hb : s.acqBusy = true := h.acquisition.timerBusy ▸ ht
    rw [lockstep_iff] at hs ⊢
    intro hf
    obtain ⟨c, hc⟩ := (hs (hmarks.faults_eq_nil hf)).1 hb
    refine ⟨fun _ => ⟨c, hc.sampleMove hb hsample hf⟩, fun hend => ?_⟩
    cases hb.symm.trans ((sampleMove_acqBusy hsample).symm.trans hend)
  · have hb : s.acqBusy = true := ((h.channel c).pendingBusy hp).1
    rw [lockstep_iff] at hs ⊢
    intro hf
    obtain ⟨d, hd⟩ := (hs (hmarks.faults_eq_nil hf)).1 hb
    exact hd.adc hb hp hadc

/-- Settles O56: a step is one move, and using up its choice touches no channel. -/
theorem stepKeepsLockstep : Obligations.StepKeepsLockstep := by
  intro s t h hs hx
  obtain ⟨-, e, m, d, hmove⟩ := step_eq_next hx
  have hi : State.Inv { s with moves := m, drawn := d } := h.of_onlyFree rfl h.neverUnwritten
  have hl : State.Lockstep { s with moves := m, drawn := d } := ⟨hs.running, hs.resting⟩
  exact runMove_lockstep hi hl hmove

end lockstep

end Sys2Proof.Machine

/-! # A whole capture (R244, R246)

The ticks of an acquisition go round the ring from its start slot on, one cell each, so when the last block ends the
ring holds the conversions of the last `R` ticks. -/

namespace Sys2Proof.Machine

section capture

/-! ## Ring cells in the order of the ticks -/

/-- The cell of a sample of a slot modulo `N_BLOCKS` is its running number modulo `R` (R74). -/
theorem ringIndex_mod (cfg : Config) (hN : 0 < cfg.nBlocks) (a : Nat) {p : Nat} (hp : p < cfg.nSamples) :
    ringIndex cfg (a % cfg.nBlocks) p = (a * cfg.nSamples + p) % cfg.ringSize := by
  have hsplit : a * cfg.nSamples + p = ringIndex cfg (a % cfg.nBlocks) p + cfg.ringSize * (a / cfg.nBlocks) := by
    conv_lhs => rw [← Nat.mod_add_div a cfg.nBlocks]
    simp only [ringIndex, Config.ringSize]
    ring
  rw [hsplit, Nat.add_mul_mod_self_left, Nat.mod_eq_of_lt (ringIndex_lt (Nat.mod_lt a hN) hp)]

/-- One acquisition: what it is told from outside, and the marks it starts with. -/
structure Capture where
  cfg : Config
  /-- The blocks `off` of its window offset (R233). -/
  off : Nat
  /-- The conversion of each channel at each tick, counted from the start. -/
  conv : Chan → Nat → U16
  faults : List FaultName

/-- A run without sample ticks leaves both rings as they are (R70). -/
theorem runMoves_ring {moves : List Event} {s t : State} (hm : ∀ e ∈ moves, ∀ v0 v1, e ≠ .sample v0 v1)
    (h : runMoves moves s = .next t) (c : Chan) (a : Nat) : (t.mem.ring c).read a = (s.mem.ring c).read a := by
  induction moves generalizing s with
  | nil => cases h; rfl
  | cons e rest ih =>
    obtain ⟨u, hfirst, hrest⟩ := runMoves_cons h
    obtain ⟨he, hm⟩ := List.forall_mem_cons.1 hm
    obtain ⟨-, hring⟩ := onlyTheirMovesWriteOutputAndRings e s u hfirst
    exact (ih hm hrest).trans (hring he c a)

namespace Capture

variable (C : Capture)

/-- The parameters are admissible and the offset is in range (R233). -/
structure Ok : Prop where
  admissible : C.cfg.admissible
  off_le : C.off ≤ C.cfg.nBlocks - 1

/-- The ring cell of tick `m`. -/
def cell (m : Nat) : Nat := ((C.cfg.nBlocks - C.off) * C.cfg.nSamples + m) % C.cfg.ringSize

/-- A channel's record in block `k` after `p` of its samples; after the last one its handler is pending. -/
def record (k p : Nat) : Channel where
  isDone := false
  blockCount := BitVec.ofNat 32 (C.cfg.nBlocks + C.off - k)
  blockWrite := BitVec.ofNat 32 ((C.cfg.nBlocks - C.off + k) % C.cfg.nBlocks)
  dmaArmed := decide (p < C.cfg.nSamples)
  dmaPos := p % C.cfg.nSamples
  pendAdc := !decide (p < C.cfg.nSamples)

/-- A state of the capture in block `k` after `p` of its samples: the last `R` ticks are in their cells. -/
structure At (k p : Nat) (s : State) : Prop where
  cfg : s.cfg = C.cfg
  busy : s.acqBusy = true
  timer : s.timerRunning = true
  txIdle : s.txFlag = false
  faults : s.faults = C.faults
  chan : ∀ c, s.chan c = C.record k p
  ring : ∀ c m, m < k * C.cfg.nSamples + p → k * C.cfg.nSamples + p ≤ m + C.cfg.ringSize →
    (s.mem.ring c).read (C.cell m) = some (C.conv c m)

variable {C} {s : State} {k p : Nat}

/-- Ticks less than a ring apart have different cells. -/
theorem cell_ne {m n : Nat} (hmn : m < n) (hn : n < m + C.cfg.ringSize) : C.cell m ≠ C.cell n := by
  intro h
  have hmod : m ≡ n [MOD C.cfg.ringSize] := Nat.ModEq.add_left_cancel' _ h
  have := Nat.le_of_dvd (by omega) ((Nat.modEq_iff_dvd' hmn.le).1 hmod)
  omega

/-- The numbers a record holds fit their 32 bits (R17). -/
theorem Ok.bounds (h : C.Ok) : 2 ≤ C.cfg.nBlocks ∧ C.cfg.nBlocks + C.off < 32768 := by
  have hN := nBlocks_bounds h.admissible
  have ho := h.off_le
  omega

theorem Ok.toNat_blockWrite (h : C.Ok) (k p : Nat) :
    (C.record k p).blockWrite.toNat = (C.cfg.nBlocks - C.off + k) % C.cfg.nBlocks := by
  have hb := h.bounds
  have hlt := Nat.mod_lt (C.cfg.nBlocks - C.off + k) (show C.cfg.nBlocks > 0 by omega)
  exact (BitVec.toNat_ofNat _ 32).trans (Nat.mod_eq_of_lt (by omega))

theorem Ok.blockCount_ne_zero (h : C.Ok) (hk : k < C.cfg.nBlocks + C.off) : (C.record k p).blockCount ≠ 0 := by
  have hb := h.bounds
  intro h0
  have hzero : (C.cfg.nBlocks + C.off - k) % 2 ^ 32 = 0 := congrArg BitVec.toNat h0
  omega

/-- The record an acquisition starts with (R232). -/
theorem Ok.armChannel_eq (h : C.Ok) {r : Channel} (hp : r.pendAdc = false) :
    armChannel C.cfg C.off r = C.record 0 0 := by
  have hS : 0 < C.cfg.nSamples := by have := h.admissible.2.1.1; omega
  have hslot : startSlot C.cfg C.off = (C.record 0 0).blockWrite :=
    BitVec.eq_of_toNat_eq ((toNat_startSlot h.admissible C.off).trans (h.toNat_blockWrite 0 0).symm)
  simp only [armChannel, hslot, hp]
  simp [record, startCount, hS]

/-- One more sample in the block. -/
theorem record_sampled (hp : p < C.cfg.nSamples) : (C.record k p).sampled C.cfg.nSamples = C.record k (p + 1) := by
  have hpos := Nat.mod_eq_of_lt hp
  by_cases hlast : p + 1 = C.cfg.nSamples
  · simp [Channel.sampled, record, hpos, hlast]
  · have hlt : p + 1 < C.cfg.nSamples := by omega
    simp [Channel.sampled, record, hpos, hlast, hp, hlt, Nat.mod_eq_of_lt hlt]

/-- The handler moves a full block's record on to the next block (R239). -/
theorem Ok.record_handled (h : C.Ok) (hk : k < C.cfg.nBlocks + C.off) :
    (C.record k C.cfg.nSamples).handled C.cfg = C.record (k + 1) 0 := by
  have hb := h.bounds
  have hS : 0 < C.cfg.nSamples := by have := h.admissible.2.1.1; omega
  have hnext : nextSlot C.cfg (C.record k C.cfg.nSamples).blockWrite = (C.record (k + 1) 0).blockWrite := by
    apply BitVec.eq_of_toNat_eq
    rw [toNat_nextSlot h.admissible, h.toNat_blockWrite, h.toNat_blockWrite, Nat.mod_add_mod, Nat.add_assoc]
    rw [h.toNat_blockWrite]
    exact Nat.mod_lt _ (by omega)
  have hcount : (C.record k C.cfg.nSamples).blockCount - 1 = (C.record (k + 1) 0).blockCount := by
    simp only [record]
    apply BitVec.eq_of_toNat_eq
    bv_omega
  rw [Channel.handled_of_count_ne (h.blockCount_ne_zero hk), hnext, hcount]
  simp [record, hS]

/-! ## The moves of a capture -/

theorem At.sampleCell (h : C.At k p s) (hC : C.Ok) (hp : p < C.cfg.nSamples) (c : Chan) :
    s.sampleCell c = C.cell (k * C.cfg.nSamples + p) := by
  have hpos : (C.record k p).dmaPos = p := Nat.mod_eq_of_lt hp
  have hb := hC.bounds
  rw [State.sampleCell, h.cfg, h.chan, hC.toNat_blockWrite, hpos, ringIndex_mod C.cfg (by omega) _ hp, cell,
    Nat.add_mul, Nat.add_assoc]

/-- A tick of the capture. -/
theorem At.sample (h : C.At k p s) (hC : C.Ok) (hp : p < C.cfg.nSamples) :
    ∃ t, runMove (.sample (C.conv .c0 (k * C.cfg.nSamples + p)) (C.conv .c1 (k * C.cfg.nSamples + p))) s = .next t ∧
      C.At k (p + 1) t := by
  have hb := hC.bounds
  have hR : 0 < C.cfg.ringSize := Nat.mul_pos (by omega) (by omega)
  have hcell := h.sampleCell hC hp
  have harmed : ∀ c, (s.chan c).dmaArmed = true := fun c => by simp [h.chan, record, hp]
  have hring : ∀ c, s.sampleCell c < s.cfg.ringSize := fun c => by rw [hcell, h.cfg]; exact Nat.mod_lt _ hR
  refine ⟨_, runMove_sample_armed _ _ h.timer harmed hring, ?_⟩
  constructor
  case cfg => simpa using h.cfg
  case busy => simpa using h.busy
  case timer => simpa using h.timer
  case txIdle => simpa using h.txIdle
  case faults => simpa using h.faults
  case chan =>
    intro c
    rw [tickStored_chan, h.cfg, h.chan, record_sampled hp]
  case ring =>
    intro c m hm hlast
    rw [tickStored_read (fun c => C.conv c (k * C.cfg.nSamples + p)), hcell]
    split_ifs with heq
    · obtain rfl : m = k * C.cfg.nSamples + p := by
        by_contra hne
        exact cell_ne (by omega) (by omega) heq
      rfl
    · have hne : m ≠ k * C.cfg.nSamples + p := fun hme => heq (congrArg C.cell hme)
      exact h.ring c m (by omega) (by omega)

/-- The ticks of a block. -/
theorem At.samples (h : C.At k 0 s) (hC : C.Ok) (hp : p ≤ C.cfg.nSamples) :
    ∃ t, runMoves ((List.range p).map fun q =>
      .sample (C.conv .c0 (k * C.cfg.nSamples + q)) (C.conv .c1 (k * C.cfg.nSamples + q))) s = .next t ∧
        C.At k p t := by
  induction p with
  | zero => exact ⟨s, rfl, h⟩
  | succ p ih =>
    obtain ⟨u, hu, hat⟩ := ih (by omega)
    obtain ⟨t, ht, hnext⟩ := hat.sample hC hp
    refine ⟨t, ?_, hnext⟩
    rw [List.range_succ, List.map_append, runMoves_append_next _ hu, List.map_singleton, runMoves_singleton, ht]

/-- The two handlers of a block that is not the last re-arm both channels. -/
theorem At.rearm (h : C.At k C.cfg.nSamples s) (hC : C.Ok) (hk : k < C.cfg.nBlocks + C.off) :
    ∃ t, runMoves [.isr (.adc .c0), .isr (.adc .c1)] s = .next t ∧ C.At (k + 1) 0 t := by
  have hpend : ∀ c, (s.chan c).pendAdc = true := fun c => by simp [h.chan, record]
  have hcount : ∀ c, (s.chan c).blockCount ≠ 0 := fun c => by rw [h.chan]; exact hC.blockCount_ne_zero hk
  refine ⟨channelHandled .c1 (channelHandled .c0 s), ?_, ?_⟩
  · have hfirst : runMove (.isr (.adc .c0)) s = .next (channelHandled .c0 s) := by
      rw [runMove_adc (hpend .c0), if_neg fun hl => hcount .c0 hl.1]
    have hsecond : runMove (.isr (.adc .c1)) (channelHandled .c0 s) =
        .next (channelHandled .c1 (channelHandled .c0 s)) := by
      rw [runMove_adc (s := channelHandled .c0 s) (c := .c1) (hpend .c1), if_neg fun hl => hcount .c1 hl.1]
    rw [runMoves_cons_next _ hfirst, runMoves_singleton, hsecond]
  · have hticks : (k + 1) * C.cfg.nSamples + 0 = k * C.cfg.nSamples + C.cfg.nSamples := by ring
    refine ⟨h.cfg, h.busy, h.timer, h.txIdle, h.faults, fun c => ?_, ?_⟩
    · have hhandled : ∀ d, (s.chan d).handled s.cfg = C.record (k + 1) 0 := fun d => by
        rw [h.chan, h.cfg, hC.record_handled hk]
      cases c
      · exact hhandled .c0
      · exact hhandled .c1
    · rw [hticks]
      exact h.ring

theorem At.block (h : C.At k 0 s) (hC : C.Ok) (hk : k < C.cfg.nBlocks + C.off) :
    ∃ t, runMoves (blockMoves C.cfg.nSamples (C.conv .c0) (C.conv .c1) k) s = .next t ∧ C.At (k + 1) 0 t := by
  obtain ⟨u, hu, hfull⟩ := h.samples hC le_rfl
  obtain ⟨t, ht, hnext⟩ := hfull.rearm hC hk
  exact ⟨t, by rw [blockMoves, runMoves_append_next _ hu, ht], hnext⟩

/-- The blocks before the last one. -/
theorem At.blocks (h : C.At 0 0 s) (hC : C.Ok) (hk : k ≤ C.cfg.nBlocks + C.off) :
    ∃ t, runMoves ((List.range k).flatMap (blockMoves C.cfg.nSamples (C.conv .c0) (C.conv .c1))) s = .next t ∧
      C.At k 0 t := by
  induction k with
  | zero => exact ⟨s, rfl, h⟩
  | succ k ih =>
    obtain ⟨u, hu, hat⟩ := ih (by omega)
    obtain ⟨t, ht, hnext⟩ := hat.block hC hk
    refine ⟨t, ?_, hnext⟩
    rw [List.range_succ, List.flatMap_append, runMoves_append_next _ hu, List.flatMap_singleton, ht]

/-- The handlers of the last block end the acquisition and start the bulk reply, with the rings as they are (R244). -/
theorem At.finish (h : C.At (C.cfg.nBlocks + C.off) C.cfg.nSamples s) :
    ∃ t, runMoves [.isr (.adc .c0), .isr (.adc .c1)] s = .next t ∧ t.acqBusy = false ∧ t.timerRunning = false ∧
      t.txFlag = true ∧ t.txBulk = true ∧ t.faults = C.faults ∧
        ∀ c a, (t.mem.ring c).read a = (s.mem.ring c).read a := by
  have hlast : ∀ c, (s.chan c).pendAdc = true ∧ (s.chan c).blockCount = 0 ∧ (s.chan c).isDone = false := fun c => by
    simp [h.chan, record]
  obtain ⟨-, hsent⟩ := rendezvousInEitherOrder s hlast
  obtain ⟨t, ht, hflag, hbulk, -, -, hbusy, htimer, -, hfaults, -⟩ := hsent h.txIdle
  exact ⟨t, ht, hbusy, htimer, hflag, hbulk, hfaults.trans h.faults, runMoves_ring (by simp) ht⟩

/-- The chronological index `u` is the tick `(off + 1) * N_SAMPLES + u` (R246). -/
theorem Ok.chronoCell_eq (h : C.Ok) (u : Nat) :
    chronoCell C.cfg u = C.cell ((C.off + 1) * C.cfg.nSamples + u) := by
  have hb := h.bounds
  have hS : 0 < C.cfg.nSamples := by have := h.admissible.2.1.1; omega
  have hround : (C.cfg.nBlocks - C.off) * C.cfg.nSamples + ((C.off + 1) * C.cfg.nSamples + u) =
      C.cfg.ringSize + (C.cfg.nSamples + u) := by
    have hblocks : C.cfg.nBlocks - C.off + (C.off + 1) = C.cfg.nBlocks + 1 := by have := h.off_le; omega
    rw [Config.ringSize, ← Nat.add_assoc, ← Nat.add_mul, hblocks, Nat.add_one_mul, Nat.add_assoc]
  rw [chronoCell, ringIndex_mod C.cfg (by omega) _ (Nat.mod_lt u hS), cell, hround, Nat.add_mod_left, Nat.add_one_mul,
    Nat.add_right_comm, Nat.div_add_mod', Nat.add_comm u]

/-- All the blocks of an acquisition, from its start to the rings the host will read (R244, R246). -/
theorem At.capture (h : C.At 0 0 s) (hC : C.Ok) :
    ∃ t, runMoves (captureMoves C.cfg C.off (C.conv .c0) (C.conv .c1)) s = .next t ∧ t.acqBusy = false ∧
      t.timerRunning = false ∧ t.txFlag = true ∧ t.txBulk = true ∧ t.faults = C.faults ∧
        ∀ c u, u < C.cfg.ringSize → (t.mem.ring c).read (chronoCell C.cfg u) =
          some (C.conv c ((C.off + 1) * C.cfg.nSamples + u)) := by
  obtain ⟨v, hv, hbefore⟩ := h.blocks hC le_rfl
  obtain ⟨w, hw, hfull⟩ := hbefore.samples hC le_rfl
  obtain ⟨t, ht, hbusy, htimer, hflag, hbulk, hfaults, hring⟩ := hfull.finish
  refine ⟨t, ?_, hbusy, htimer, hflag, hbulk, hfaults, fun c u hu => ?_⟩
  · rw [captureMoves, List.range_succ, List.flatMap_append, runMoves_append_next _ hv, List.flatMap_singleton,
      blockMoves, runMoves_append_next _ hw, ht]
  · have hticks : (C.cfg.nBlocks + C.off) * C.cfg.nSamples + C.cfg.nSamples =
        C.cfg.ringSize + (C.off + 1) * C.cfg.nSamples := by
      rw [Config.ringSize]
      ring
    rw [hring, hC.chronoCell_eq]
    exact hfull.ring c _ (by omega) (by omega)

end Capture

/-- One conversion function per channel. -/
def conversions (f0 f1 : Nat → U16) : Chan → Nat → U16
  | .c0 => f0
  | .c1 => f1

/-- The capture of an acquisition with window length `l`, started on `s`. -/
def captureOf (s : State) (l : U16) (f0 f1 : Nat → U16) : Capture where
  cfg := s.cfg
  off := (offsetOf s.cfg l.toNat).1
  conv := conversions f0 f1
  faults := s.faults

theorem captureOf_ok {s : State} {l : U16} (h : s.Inv) (hl : s.cfg.admitsLength l.toNat) (f0 f1 : Nat → U16) :
    (captureOf s l f0 f1).Ok :=
  ⟨h.config, (offsetOf_rowOk h.config hl).1⟩

/-- The start of an acquisition is before its first tick (R232). -/
theorem acquireStart_at {s : State} {l : U16} (h : s.Inv) (hidle : s.acqBusy = false) (hf : s.txFlag = false)
    (hl : s.cfg.admitsLength l.toNat) (interval : U16) (f0 f1 : Nat → U16) :
    (captureOf s l f0 f1).At 0 0 (acquireStart interval l s) := by
  have hpend : ∀ c, (s.chan c).pendAdc = false := fun c =>
    Bool.eq_false_iff.2 fun hp => by cases hidle.symm.trans ((h.channel c).pendingBusy hp).1
  have hC := captureOf_ok h hl f0 f1
  refine ⟨rfl, rfl, rfl, hf, rfl, ?_, fun c m hm => by simp at hm⟩
  rintro (_ | _)
  · exact hC.armChannel_eq (hpend .c0)
  · exact hC.armChannel_eq (hpend .c1)

/-- Settles O50: the capture from its start, read at the chronological cells of both rings. -/
theorem captureIsChronological : Obligations.CaptureIsChronological := by
  intro s interval l f0 f1 h hidle hf hl
  obtain ⟨t, ht, hbusy, htimer, hflag, hbulk, hfaults, hring⟩ :=
    (acquireStart_at h hidle hf hl interval f0 f1).capture (captureOf_ok h hl f0 f1)
  exact ⟨t, ht, hbusy, htimer, hflag, hbulk, hfaults, fun u hu => ⟨hring .c0 u hu, hring .c1 u hu⟩⟩

end capture

end Sys2Proof.Machine

/-! # No step stops (R280)

Inside the invariant every part of a move finds what it reads: the byte's cell, the transmit's position, the sample's
slot, the frame. So every move answers a next state, marked or not. -/

namespace Sys2Proof.Machine

/-- An outcome that is a next state. -/
def Answers (o : Host.Outcome State Fault Refusal) : Prop := ∃ t, o = .next t

section progress

variable {s : State}

@[simp] theorem answers_next (s : State) : Answers (.next s) := ⟨s, rfl⟩

theorem answers_ite {p : Prop} [Decidable p] {a b : Host.Outcome State Fault Refusal} (ha : Answers a)
    (hb : Answers b) : Answers (if p then a else b) := by
  split
  · exact ha
  · exact hb

theorem answers_outcome_ite {p : Prop} [Decidable p] {x y : Flow} (hx : Answers x.outcome) (hy : Answers y.outcome) :
    Answers (if p then x else y).outcome := by
  rw [apply_ite Flow.outcome]
  exact answers_ite hx hy

/-- A part of a step and the part after it: the second is only made on the state the first goes on with. -/
theorem answers_andThen {x : Flow} {k : State → Flow} (hx : Answers x.outcome)
    (hk : ∀ t, x = .cont t → Answers (k t).outcome) : Answers (x.andThen k).outcome := by
  cases x with
  | cont t => exact hk t rfl
  | ends t => exact answers_next t
  | stop f => exact hx

/-! ## The instructions answer in every state -/

theorem startTx_answers (h : Header) (bulk : Bool) (plen : Nat) (s : State) :
    Answers (startTx h bulk plen s).outcome := by
  obtain ⟨-, he⟩ | ⟨-, he⟩ := startTx_cases h bulk plen s <;> rw [he] <;> exact answers_next _

theorem sendReply_answers (h : Header) (s : State) : Answers (sendReply h s).outcome :=
  answers_andThen (startTx_answers h false 0 s) fun _ _ => answers_next _

theorem execOscRun_answers (payload : List Byte) (s : State) : Answers (execOscRun payload s) := by
  unfold execOscRun
  split
  · exact answers_next _
  · rename_i o _
    refine answers_andThen ?_ fun _ _ => answers_next _
    obtain ⟨f, -, he⟩ | ⟨-, -, -, he⟩ := acquire_cases o.interval o.length s <;> rw [he] <;> exact answers_next _

/-- No instruction faults or is refused on any path: a raised mark is a next state too (R285, R290). -/
theorem exec_answers (i : Instr) (s : State) : Answers (exec i s) := by
  cases i with
  | liveness payload => rw [exec_liveness]; exact answers_ite (answers_next _) (answers_next _)
  | version payload => rw [exec_version]; exact answers_ite (answers_next _) (answers_next _)
  | oscRun payload => exact execOscRun_answers payload s
  | replyLiveness | replyVersion | replyRunAck => exact sendReply_answers _ s
  | replyBulk intra interval => exact startTx_answers _ true _ s
  | frameError | oscOther | voltmeter | external | kOther | verOther | unsupported => exact answers_next _

/-! ## Hardware moves -/

theorem hostSend_answers (b : Byte) (s : State) : Answers (hostSend b s).outcome :=
  answers_outcome_ite (answers_next _) (answers_next _)

/-- The armed transfer's next byte has a cell (R90). -/
theorem uartMove_answers (h : s.RxInv) : Answers (uartMove s).outcome := by
  unfold uartMove
  split
  · exact answers_next _
  · split
    · rename_i hp
      obtain ⟨hcount, -⟩ := h.inHeader hp
      rw [uartHeader, if_pos (show s.rxCount < 8 by omega)]
      exact answers_outcome_ite (answers_next _) (answers_next _)
    · rename_i hp
      obtain ⟨hcount, hmax, -⟩ := h.inPayload hp
      rw [uartPayload, if_pos (show s.rxCount < s.cfg.rxPayloadMax by omega)]
      exact answers_outcome_ite (answers_next _) (answers_next _)
    all_goals exact answers_next _

/-- A position of a bulk transmit past the header is a byte of one of the rings (R174). -/
theorem exists_bulkBase_add {cfg : Config} {k : Nat} (h8 : 8 ≤ k) (hk : k < 8 + 4 * cfg.ringSize) :
    ∃ c q, q < 2 * cfg.ringSize ∧ k = 8 + (bulkBase cfg c + q) := by
  by_cases hc : k - 8 < 2 * cfg.ringSize
  · exact ⟨.c0, k - 8, hc, by simp only [bulkBase]; omega⟩
  · exact ⟨.c1, k - 8 - 2 * cfg.ringSize, by omega, by simp only [bulkBase]; omega⟩

/-- Every position of a transmit in flight is covered by a rule (R91, R174). -/
theorem State.TxInv.txByteAt_ne_noRule (h : s.TxInv) (hf : s.txFlag = true) {k : Nat} (hk : k < s.txTotal)
    (f : Fault) : txByteAt s k ≠ .noRule f := by
  by_cases hk8 : k < 8
  · rw [txByteAt_header hk8]
    split <;> nofun
  · obtain ⟨-, -, ⟨-, htotal⟩ | ⟨hbulk, htotal, -⟩⟩ := h.inFlight hf
    · omega
    · obtain ⟨c, q, hq, rfl⟩ := exists_bulkBase_add (Nat.not_lt.1 hk8) (htotal ▸ hk)
      rw [txByteAt_ring c hbulk hq]
      split <;> nofun

theorem txMove_answers (h : s.TxInv) (hf : s.txFlag = true) (hk : s.txPos < s.txTotal) :
    Answers (txMove s).outcome := by
  cases hb : txByteAt s s.txPos with
  | byte b => rw [txMove_byte hb]; exact answers_next _
  | unwritten => rw [txMove_unwritten hb]; exact answers_next _
  | noRule f => exact absurd hb (h.txByteAt_ne_noRule hf hk f)

/-- A channel's next sample has a cell (R74, R55). -/
theorem sampleIn_answers {c : Chan} (v : U16) (h : s.ChanInv c) : Answers (sampleIn c v s).outcome := by
  cases ha : (s.chan c).dmaArmed
  · rw [sampleIn_unarmed v ha]
    exact answers_outcome_ite (answers_next _) (answers_next _)
  · rw [sampleIn_armed v ha, State.sampleCell, if_pos (ringIndex_lt h.slotInRange h.posInRange)]
    exact answers_next _

theorem sampleMove_answers (v0 v1 : U16) (h : s.Inv) : Answers (sampleMove v0 v1 s).outcome := by
  refine answers_andThen (sampleIn_answers v0 (h.channel .c0)) fun t ht => ?_
  have hnext : t.Inv := sampleIn_inv h (Flow.outcome_eq_next.2 (.inl ht))
  exact sampleIn_answers v1 (hnext.channel .c1)

/-! ## Interrupt handlers -/

/-- A completed header is read whole (R90). -/
theorem State.RxInv.exists_header (h : s.RxInv) (hp : s.rxPhase = .headerDone) :
    ∃ hd : Header, s.readRxHeader = .value hd.bytes := by
  obtain ⟨-, hw⟩ := h.inHeaderDone hp
  obtain ⟨bytes, hread, hlen⟩ := Mem.cells_of_written hw (Nat.le_refl 8)
  obtain ⟨hd, rfl⟩ := exists_header_of_length hlen
  exact ⟨hd, hread⟩

/-- The receive handler, when it is entered with a transfer complete (R164, R165). -/
theorem rxHandler_answers (h : s.RxInv) (hp : s.rxPhase = .headerDone ∨ s.rxPhase = .payloadDone) :
    Answers (rxHandler s) := by
  obtain hp | hp := hp
  · obtain ⟨hd, hread⟩ := h.exists_header hp
    by_cases hl : hd.b0 = s.cfg.label
    · rw [rxHandler_of_label hp hread hl]
      exact answers_next _
    · rw [rxHandler_of_label_ne hp hread hl]
      exact exec_answers _ s
  · rw [rxHandler_payloadDone hp]
    exact answers_next _

theorem tickHandler_answers (s : State) : Answers (tickHandler s) :=
  answers_ite (answers_ite (answers_next _) (answers_next _)) (answers_next _)

theorem adcHandler_answers (c : Chan) (s : State) : Answers (adcHandler c s) :=
  answers_ite (answers_ite (exec_answers _ _) (answers_next _)) (answers_next _)

theorem handlerBody_answers {x : IntSource} (h : s.Inv) (hp : s.pending x = true) :
    Answers (handlerBody x (s.clearPend x)) := by
  cases x with
  | rx =>
    have hs : (s.clearPend .rx).RxInv := { h.receive with pendingDone := nofun }
    exact rxHandler_answers hs (h.receive.pendingDone hp)
  | tx => exact answers_next _
  | adc c => exact adcHandler_answers c _
  | tick => exact tickHandler_answers _

/-! ## Main-loop steps -/

/-- A waiting frame is read whole, has the right label and is complete, so it decodes (R90, R200). -/
theorem mainTake_answers (h : s.RxInv) (hf : s.rxFlag = true) : Answers (mainTake s) := by
  obtain ⟨n, hmax, ⟨hd, hread, hl, rfl⟩, hw⟩ := h.frameHeld hf
  obtain ⟨payload, hpl, hlen⟩ := Mem.cells_of_written hw hmax
  have hdec := decodeCommand_header hl payload [] hlen
  rw [List.append_nil] at hdec
  rw [mainTake_frame hread hl hpl hdec]
  exact exec_answers _ _

theorem mainReply_answers (s : State) : Answers (mainReply s) := by
  cases hr : s.mlReply with
  | none => simp only [mainReply, hr, answers_next]
  | some hd => rw [mainReply_some hr]; exact sendReply_answers hd s

theorem mainStep_answers (h : s.RxInv) (hen : s.mainEnabled = true) : Answers (mainStep s) := by
  unfold mainStep
  split
  · rename_i hl
    exact mainTake_answers h (by simpa [State.mainEnabled, hl] using hen)
  · exact mainReply_answers s
  · exact answers_next _

/-! ## The step -/

theorem moveBody_answers {e : Event} (h : s.Inv) (hen : s.enabled e = true) : Answers (moveBody e s) := by
  cases e with
  | send b => exact hostSend_answers b s
  | uart => exact uartMove_answers h.receive
  | txb =>
    obtain ⟨hf, hk⟩ := Bool.and_eq_true_iff.1 hen
    exact txMove_answers h.transmit hf (of_decide_eq_true hk)
  | tick => exact answers_next _
  | sample v0 v1 => exact sampleMove_answers v0 v1 h
  | isr x => rw [moveBody_isr]; exact handlerBody_answers h hen
  | ml => exact mainStep_answers h.receive (Bool.and_eq_true_iff.1 hen).2

theorem runMove_answers (e : Event) (h : s.Inv) : Answers (runMove e s) := by
  obtain ⟨hen, he⟩ | ⟨-, he⟩ := runMove_cases e s <;> rw [he]
  · exact moveBody_answers h hen
  · exact answers_next s

/-- Settles O55: the configuration is admissible, and every move answers from the state its choice leaves. -/
theorem noStepStops : Obligations.NoStepStops := by
  intro s h
  have hs : ∀ m d, State.Inv { s with moves := m, drawn := d } := fun _ _ => h.of_onlyFree rfl h.neverUnwritten
  cases hm : s.moves with
  | nil => exact step_of_moves_nil h.config hm ▸ runMove_answers _ (hs s.moves _)
  | cons e rest => exact step_of_moves_cons h.config hm ▸ runMove_answers e (hs rest s.drawn)

end progress

end Sys2Proof.Machine

/-! # What a handler run leaves as it was (R46, R296, R297) -/

namespace Sys2Proof.Machine

/-- Every pending bit and the main loop's position and reply are the same. -/
structure State.KeepsContext (s t : State) : Prop where
  pending : ∀ x, t.pending x = s.pending x
  mlPhase : t.mlPhase = s.mlPhase
  mlReply : t.mlReply = s.mlReply

section handlers

variable {s t u : State}

theorem State.KeepsContext.trans (h : s.KeepsContext t) (k : t.KeepsContext u) : s.KeepsContext u where
  pending := fun x => (k.pending x).trans (h.pending x)
  mlPhase := k.mlPhase.trans h.mlPhase
  mlReply := k.mlReply.trans h.mlReply

theorem State.raise_keepsContext (s : State) (f : FaultName) : s.KeepsContext (s.raise f) :=
  ⟨fun _ => rfl, rfl, rfl⟩

/-- A channel's record replaced by one with the same pending bit. -/
theorem State.setChan_keepsContext {c : Chan} {r : Channel} (h : r.pendAdc = (s.chan c).pendAdc) :
    s.KeepsContext (s.setChan c r) where
  pending := by
    rintro (_ | _ | d | _)
    · exact State.setChan_pendRx s c r
    · exact State.setChan_pendTx s c r
    · rw [State.pending, State.pending, State.setChan_chan]
      split
      · rw [h, ‹d = c›]
      · rfl
    · exact State.setChan_pendTick s c r
  mlPhase := State.setChan_mlPhase s c r
  mlReply := State.setChan_mlReply s c r

theorem acceptHeader_keepsContext (p : Packet) (s : State) : s.KeepsContext (acceptHeader p s) := by
  obtain ⟨-, he⟩ | ⟨-, -, he⟩ | ⟨-, -, he⟩ := acceptHeader_cases p s <;> rw [he] <;> exact ⟨fun _ => rfl, rfl, rfl⟩

theorem rxHandler_keepsContext (h : rxHandler s = .next t) : s.KeepsContext t := by
  obtain ⟨-, -, rfl⟩ | ⟨hd, -, -, -, rfl⟩ | ⟨-, rfl⟩ | ⟨-, rfl⟩ := rxHandler_cases h
  · exact s.raise_keepsContext _
  · exact acceptHeader_keepsContext _ s
  · exact ⟨fun _ => rfl, rfl, rfl⟩
  · exact ⟨fun _ => rfl, rfl, rfl⟩

theorem startTx_keepsContext {hd : Header} {bulk : Bool} {plen : Nat}
    (h : (startTx hd bulk plen s).outcome = .next t) : s.KeepsContext t := by
  obtain ⟨-, rfl⟩ | ⟨-, rfl⟩ := startTx_outcome_cases h
  · exact s.raise_keepsContext _
  · exact ⟨fun _ => rfl, rfl, rfl⟩

theorem adcHandler_keepsContext {c : Chan} (h : adcHandler c s = .next t) : s.KeepsContext t := by
  obtain ⟨-, rfl⟩ | ⟨-, -, rfl⟩ | ⟨-, -, hd, h⟩ := adcHandler_cases h
  · exact State.setChan_keepsContext rfl
  · exact State.setChan_keepsContext rfl
  · have hdone : s.KeepsContext (markDone c s) := State.setChan_keepsContext rfl
    have hended : (markDone c s).KeepsContext (endAcquisition (markDone c s)) := ⟨fun _ => rfl, rfl, rfl⟩
    exact (hdone.trans hended).trans (startTx_keepsContext h)

theorem tickHandler_keepsContext (h : tickHandler s = .next t) : s.KeepsContext t := by
  obtain ⟨-, rfl⟩ | ⟨b, rfl⟩ := tickHandler_cases h <;> exact ⟨fun _ => rfl, rfl, rfl⟩

/-- A handler's body sets and clears no pending bit: entry has cleared its own (R296). -/
theorem handlerBody_keepsContext {x : IntSource} (h : handlerBody x s = .next t) : s.KeepsContext t := by
  cases x with
  | rx => exact rxHandler_keepsContext h
  | tx => cases h; exact ⟨fun _ => rfl, rfl, rfl⟩
  | adc c => exact adcHandler_keepsContext h
  | tick => exact tickHandler_keepsContext h

/-- Settles O41: entry clears the bit, and the body keeps it clear and leaves the main loop alone. -/
theorem handlersKeepTheMainLoopPosition : Obligations.HandlersKeepTheMainLoopPosition := by
  refine ⟨fun s t x hp h => ?_, fun s x hp => runMove_disabled hp⟩
  rw [runMove_isr x s hp] at h
  obtain ⟨hpending, hphase, hreply⟩ := handlerBody_keepsContext h
  refine ⟨?_, hphase.trans (s.clearPend_mlPhase x), hreply.trans (s.clearPend_mlReply x)⟩
  rw [hpending, State.clearPend_pending, decide_eq_true rfl]
  rfl

end handlers

end Sys2Proof.Machine
